-- ==== Sys2Proof/Word.lean ====
section
/-! DEFINITION. The word types of the PV8K1 (R9 to R12): bytes, 32-bit register words, 64-bit wide
registers, and signed accumulators. Every quantity the manual reads as bits is a bit vector; counts,
indices and addresses are natural numbers. -/

namespace Sys2Proof

/-- One byte of device memory or of host memory (R11). -/
abbrev Byte := BitVec 8

/-- One 32-bit register or GVIS general register (R144). -/
abbrev Word := BitVec 32

/-- One wide register, Z register or Wave Store word (R338). -/
abbrev Dword := BitVec 64

/-- One half of an accumulator, Q17.63 (R148). -/
abbrev Acc80 := BitVec 80

/-- One 64-bit GVIS bundle (R170). -/
abbrev Bundle := BitVec 64

end Sys2Proof
end

