-- ==== Sys2Proof/Syntax.lean ====
section
/-! DEFINITION. The commands of the block: one constructor of `Instr` for each row of
spec/opcode_table.json, with the operands the row's rule gives the step. What reaches the device from
outside (bytes of a memory request, a received character, a measured edge) is an operand; everything
else a step needs is read from the state. -/

namespace Sys2Proof

/-- A host port (R473). -/
inductive Port where
  | a
  | b
deriving DecidableEq, Repr

/-- A requester: an agent that issues register accesses (R8). -/
inductive Req where
  | hpa
  | hpb
  | se0
  | se1
deriving DecidableEq, Repr

/-- One access of a register, node or string word that reaches the arbiter (R505): who, where, how wide, and what a write
carries; a read carries nothing. -/
structure RegAccess where
  req   : Req
  addr  : Nat
  /-- Width in bytes: 1, 2, 4 or 8 (R509). -/
  size  : Nat
  value : Option Dword
deriving DecidableEq, Repr

/-- The accesses of one arbitration slot (R505, R506). With `meets` they stand at the arbiter until another command makes
the access of another requester that shares their slot. -/
structure RegSlot where
  accesses : List RegAccess
  meets    : Bool := false
deriving DecidableEq, Repr

/-- A memory request on a BAR (R481, R513): the byte lanes from `offset` up. For a write a lane is
the byte carried, or none where its byte enable is clear; for a read every lane that is `some` is
asked for, and its value is ignored. -/
structure MemReq where
  isWrite : Bool
  offset  : Nat
  lanes   : List (Option Byte)
deriving DecidableEq, Repr

/-- How a descriptor read fails (R491): an Unsupported Request, a Completer Abort, a poisoned completion, or a completion
timeout. -/
inductive FetchError where
  | unsupported
  | abort
  | poisoned
  | timeout
deriving DecidableEq, Repr

/-- What a descriptor read brings back (R486, R491): up to 8 slots of 64 bytes, or an error. -/
inductive FetchResult where
  | slots (data : List (List Byte))
  | error (how : FetchError)
deriving DecidableEq, Repr

/-- What the sampler of a UART saw of one character (R543, R544): bit k of each word is the line, high or low, at tick
16k + 7, 16k + 8 or 16k + 9 from tick 0 of the start bit. A character has at most 12 bits: start, 9 data, parity, stop. -/
structure RxChar where
  s7 : BitVec 12
  s8 : BitVec 12
  s9 : BitVec 12
deriving DecidableEq, Repr

/-- What a commander read back of a header it sent (R554): the centre samples of the break and the delimiter, bit time k
at bit k (at most 20 and 2 bit times), then the character 0x55 and the PID. -/
structure HeaderEcho where
  s7   : BitVec 22
  s8   : BitVec 22
  s9   : BitVec 22
  sync : RxChar
  pid  : RxChar
deriving DecidableEq, Repr

/-- The response time limit of a UART's frame expires (R557): with the three centre samples of the start bit of a character
that is not complete, if one has begun. -/
structure LinLimit where
  u     : Fin 4
  start : Option (BitVec 3) := none
deriving DecidableEq, Repr

/-- The four intervals between the five falling edges of a 0x55 character, in cycles of the UART
reference (R561). -/
structure SyncEdges where
  i1 : Nat
  i2 : Nat
  i3 : Nat
  i4 : Nat
deriving DecidableEq, Repr

/-- One received S/PDIF frame (R394): two 24-bit words, its parity and validity, and the
channel-status bytes 3 to 0 of the latest complete block received. -/
structure SpdifFrame where
  /-- Where its subframe-1 preamble starts: 1/256 SCK cycles since the latest strobe (R453, R457). -/
  pos      : BitVec 20
  left     : BitVec 24
  right    : BitVec 24
  parityOk : Bool
  validity : Bool
  cs       : Word
deriving DecidableEq, Repr

/-- One port frame of a TDM port (R385, R389, R457): where its FS edge stands, in 1/256 SCK cycles since the latest strobe, how
many BCLK periods it holds, and DI as sampled in each BCLK period from that edge on. With a data delay of one period the
last bit of the last slot is the sample after the frame's own. -/
structure TdmIn where
  pos  : BitVec 20
  bclk : Nat
  di   : List Bool
deriving DecidableEq, Repr

/-- What a configuration-space access reads or writes (R478): the settings that this manual lets
the device's behaviour depend on. -/
inductive CfgItem where
  | ptmEnable
  | busMasterEnable
  | aspmL1
  | l1ss
  | msixFunctionMask
  | msixEnable
  | maxPayload
  | maxReadRequest
  | header (offset : Nat)
deriving DecidableEq, Repr

/-- The commands of the block, one constructor for each row of the operation table. -/
inductive Instr where
  -- the media clock and what runs at its strobe
  | frameStrobe
  | deferredRelease
  | framePublish (v : Fin 8192)
  | deferredPublish (v : Fin 8192)
  | spdifCsBlock
  | tdmPortFrame (n : Fin 4) (f : TdmIn)
  | spdifRxFrame (f : SpdifFrame)
  | timerExpiry (t : Fin 16)
  | candidateQualify (r : Fin 5) (cycle : BitVec 12) (part : Byte)
  -- the Puppeteer
  | migrationCopy (v : Fin 8192)
  | migrationCopyDone (v : Fin 8192)
  | strainExpiry (n : Fin 64)
  | taskReady (n : Fin 64) (tag : BitVec 16)
  | dispatch (n : Fin 64)
  | preempt (n : Fin 64)
  | residencyLoadDone (n : Fin 64) (g : Fin 1024)
  -- host time
  | ptmDialogueStart (p : Port)
  | ptmPair (p : Port) (h e : Dword) (validContext : Bool)
  | ptmTimeout (p : Port)
  -- supply sag
  | sagLevelRise (l : Fin 5)
  | sagLevelFall (l : Fin 5)
  | muteRampEnd
  -- the cores: 0 to 63 are VE0 to VE63, 64 and 65 are SE0 and SE1
  | bundleIssue (c : Fin 66)
  | waveFetchArrival (c : Fin 66) (k : Fin 4)
  | windowOverflowTrap (c : Fin 66)
  | windowUnderflowTrap (c : Fin 66)
  | trapEntry (c : Fin 66)
  | faultWithoutHandler (c : Fin 66)
  | recoveryKernelDone (c : Fin 66) (pass : Bool)
  | veResume (q : Req) (n : Fin 64) (v : Word)
  | taskCompletion (n : Fin 64)
  | contributionAccept (n : Fin 64)
  -- accesses
  | bar0Request (p : Port) (m : MemReq)
  | bar2Request (p : Port) (m : MemReq)
  | registerWrite (slot : RegSlot)
  | latchedRead (q : Req) (addr size : Nat)
  | clearOnRead (q : Req) (addr size : Nat)
  | nodeTableWrite (q : Req) (addr size : Nat) (v : Dword)
  -- rings and ports
  | ringDoorbell (p : Port) (r : Fin 4) (v : Word)
  | descriptorFetch (p : Port) (r : Fin 4) (res : FetchResult)
  | completionWrite (p : Port) (r : Fin 4)
  | completionHeadWrite (p : Port) (r : Fin 4) (v : Word)
  | ringEnable (p : Port) (r : Fin 4) (depth : BitVec 4)
  | ringDisable (p : Port) (r : Fin 4) (depth : BitVec 4)
  | irqEnableWrite (p : Port) (v : Word)
  | seDoorbell (e : Fin 2) (p : Port)
  | stgDoorbell (q : Req) (e : Fin 2) (v : Word)
  | linkUp (p : Port) (width speed : BitVec 4)
  | portFlr (p : Port)
  | portHotReset (p : Port)
  | portLinkDown (p : Port)
  | portPerst (p : Port)
  | d3hotEntry (p : Port)
  | d0Return (p : Port)
  | l1Entry (p : Port) (sub : Fin 3)
  | l1Exit (p : Port)
  -- ring commands
  | commandNop (p : Port) (r : Fin 4)
  | events (p : Port) (r : Fin 4)
  | umps (p : Port) (r : Fin 4)
  | write32 (p : Port) (r : Fin 4)
  | txnStage (p : Port) (r : Fin 4)
  | txnCommit (p : Port) (r : Fin 4)
  | txnAbort (p : Port) (r : Fin 4)
  | progLoad (p : Port) (r : Fin 4)
  | progRemove (p : Port) (r : Fin 4)
  -- transactions through registers
  | txnCtrlOpen (q : Req) (i : Fin 4)
  | txnCtrlCommit (q : Req) (i : Fin 4)
  | txnCtrlAbort (q : Req) (i : Fin 4)
  | txnSaddrWrite (q : Req) (i : Fin 4) (addr : Word)
  | txnSdataStage (q : Req) (i : Fin 4) (v : Dword)
  | txnCheckDone (i : Fin 4)
  -- semaphores
  | semTry (q : Req) (n : Fin 64)
  | semRel (q : Req) (n : Fin 64)
  -- event entry and mapping
  | evtTakeUartEntry (u : Fin 2)
  | hmapLoad (q : Req) (p : Port) (v : Word)
  | hmapModeChange (q : Req) (p : Port) (v : Word)
  -- Stage Engines
  | stgSendgo (q : Req) (e : Fin 2) (kind : Bool)
  | stgSvcPop (q : Req) (e : Fin 2)
  | stgLoad (q : Req) (e : Fin 2) (v : Word)
  | stgLoadDone (e : Fin 2)
  | stgStart (q : Req) (e : Fin 2) (v : Word)
  | stgStop (q : Req) (e : Fin 2) (v : Word)
  | stgLock (q : Req) (e : Fin 2) (v : Word)
  | stgResume (q : Req) (e : Fin 2) (v : Word)
  | stgAutoRestart (e : Fin 2)
  | stgWakeResume (e : Fin 2)
  | seLoadArrival (e : Fin 2)
  -- the Wave Store
  | wsOwnWrite (q : Req) (b : Fin 16) (v : Word)
  | wsDrainDone (b : Fin 16)
  | bankClearDone (b : Fin 16)
  | wakeClearDone
  -- fixed tasks
  | taskEnable (q : Req) (t : Fin 256) (v : Word)
  | taskDisable (q : Req) (t : Fin 256) (v : Word)
  | taskRun (q : Req) (t : Fin 256) (v : Word)
  -- converters
  | dacStrobe (q : Req) (g1 g0 : Bool)
  | dacLoadEdge
  | dacClrChange (level : Bool)
  | deglitchRelease (c : Fin 8)
  | faultQualify (c : Fin 8) (openLoad window : Bool)
  | flatchClear (q : Req) (c : Fin 8)
  -- serial ports
  | uartRxCharacter (u : Fin 4) (ch : RxChar)
  | uartRxdRead (q : Req) (u : Fin 4)
  | uartTxd (q : Req) (u : Fin 4) (v : Word)
  | uartTxDone (u : Fin 4)
  | uartEnable (q : Req) (u : Fin 4) (v : Word)
  | uartDisable (q : Req) (u : Fin 4) (v : Word)
  | abarm (q : Req) (u : Fin 4)
  | txflush (q : Req) (u : Fin 4)
  | rxflush (q : Req) (u : Fin 4)
  | autobaudMeasure (u : Fin 4) (m : SyncEdges)
  | fhdrGo (q : Req) (u : Fin 4) (id : BitVec 6)
  | linHeaderSent (u : Fin 4) (readBack : HeaderEcho)
  | linBreakDetect (u : Fin 4)
  | linSyncMeasure (u : Fin 4) (m : SyncEdges)
  | linPidReceived (u : Fin 4) (ch : RxChar)
  | linFrameEnd (u : Fin 4)
  | linResponseTimeout (limit : LinLimit)
  -- timers and check units
  | tmrCountWrite (q : Req) (t : Fin 16) (v : Word)
  | tmrCfgWrite (q : Req) (t : Fin 16) (v : Word)
  | chkStart (q : Req) (k : Fin 4)
  | chkArm (q : Req) (k : Fin 4)
  | chkDinWrite (q : Req) (k : Fin 4) (n : Fin 4) (v : Word)
  | chkAinWrite (q : Req) (k : Fin 4) (v : Word)
  | chkCfgWrite (q : Req) (k : Fin 4) (v : Word)
  -- security
  | progmkh (q : Req)
  | svninc (q : Req)
  | dbgoff (q : Req)
  | fuseProgramDone
  | sealRequest (q : Req) (b : Fin 16)
  | sealDeliveryDone
  | attestGo (q : Req) (i : Fin 4)
  | quoteDone
  | chalgo (q : Req) (i : Fin 4)
  | unlock (q : Req) (i : Fin 4)
  | unlockDone (i : Fin 4)
  | debugClose (q : Req) (i : Fin 4)
  | entropyFail
  -- power and start-up
  | pwrReqset (q : Req) (v : Word)
  | pwrReqclr (q : Req) (v : Word)
  | powerStateEntry
  | sleepExit
  | offEntry
  | powerOn
  | wakeNAssert
  | powerFail
  | pgoodHigh
  | pgoodTimeout
  | crystalStable
  | recordsRead
  | secRelease
  | selfTestDone (failed : BitVec 64)
  -- non-volatile memory and ageing
  | nvmWrite (q : Req) (rid : BitVec 8)
  | nvmErase (q : Req) (rid : BitVec 8)
  | nvmCommit (q : Req)
  | nvmOpDone
  | ageMeas (q : Req) (v : Word)
  | agePeriodicMeasure
  | ageMeasureDone
  | vsetSettleExpiry
  | agehAppend
  -- the link and reference inputs
  | configurationRequest (p : Port) (item : CfgItem) (write : Option Word)
  | perstNRelease (p : Port)
  /-- Here, for WCLK_IN_EDGE and for CANDIDATE_QUALIFY, `cycle` and `part` say when: SCK cycles since the latest strobe,
  and 1/256 parts of one. -/
  | spdifLockChange (lock : Bool) (rate : BitVec 4) (cycle : BitVec 12) (part : Byte)
  | wclkInEdge (cycle : BitVec 12) (part : Byte)
deriving DecidableEq, Repr

end Sys2Proof
end

