-- ==== Sys2Proof/Decode.lean ====
section
/-! DEFINITION. The words that spell commands. The operation table gives every row no bits (each row's
`fields` is empty): a command reaches the block as an access, an edge or a unit's own event, never as a word. -/

namespace Sys2Proof

/-- The command that a word of `nbits` bits spells: none, since no row of the operation table gives bits. -/
def decodeTableWord (_nbits _w : Nat) : Option Instr := none

end Sys2Proof
end

