-- ==== Sys2Proof/Config.lean ====
section
/-! DEFINITION. What this manual leaves to an implementation, and its free values. Each constant here is
opaque: no proof can see a value of it, so a statement that holds in the model holds whatever it is.
The assumption log names each one. -/

namespace Sys2Proof

/-- The free value that the `n`-th draw yields: the model's counter `State.draw` names the draw. Used
wherever the manual says that a value results and does not say which (log entry 4). -/
opaque Config.freeValue (w : Nat) (n : Nat) : BitVec w

/-- Whether the PUF key unwraps the private key of an identity record (R587). -/
opaque Config.identityUnwraps (record : List Byte) : Bool

/-- The identity private key that the PUF key unwraps from an identity record (R587). -/
opaque Config.identityPrivate (record : List Byte) : Nat

/-- The per-signature number of a quote, from the random bit generator (R588, R599): draw number. -/
opaque Config.nonce (draw : Nat) : Nat

/-- The identity record that SEC generates from its random bit generator (R587). -/
opaque Config.identityNew (draw : Nat) : List Byte

/-- Bytes of the deterministic random bit generator (R588): draw number and length. -/
opaque Config.drbg (draw length : Nat) : List Byte

/-- The figures that the FCAL record holds for the margin planner (R643, R647). The manual does not say how the
record stores them: the reader is opaque. Its answer is in units of 2^-48, for a sentinel's K (MHz times t in
0.1 ps), a and b (per degree, per mV) and the fresh delay. VTOL is 15 mV (R658). -/
opaque Config.fcalK (fcal : List Byte) (sentinel : Nat) : Int
opaque Config.fcalA (fcal : List Byte) (sentinel : Nat) : Int
opaque Config.fcalB (fcal : List Byte) (sentinel : Nat) : Int
opaque Config.fcalFresh (fcal : List Byte) (sentinel : Nat) : Nat

/-- The fixed payload length of the FCAL, ID, DCAL and CERT records (R636), which the manual does not state. -/
opaque Config.recordLength (rid : Nat) : Nat

/-- GAIN and OFFSET of a converter channel, as a DAC_CH_CAL word, in the FCAL record and in the DCAL record
(R643): the manual does not say where in the records they lie. -/
opaque Config.fcalTrim (fcal : List Byte) (channel : Nat) : Word
opaque Config.dcalTrim (dcal : List Byte) (channel : Nat) : Word

/-- The interpolation filter and modulator of a converter channel (R429): the code at the pins from the
filter kind and the frames taken. Only its settle time is stated. -/
opaque Config.interpolate (filter : Nat) (frames : List Word) : Word

/-- Fields of the configuration space that the PCI Express base specification fixes and this manual does not repeat (R478):
port and offset. -/
opaque Config.pciWord (port offset : Nat) : Word

/-- Subsystem vendor ID and subsystem ID of valid calibration records (R477): the manual does not say where in the
records they lie. -/
opaque Config.subsystemIds (fcal : List Byte) : Word

end Sys2Proof
end

