-- ==== Sys2Proof/Machine/RegMap.lean ====
section
/-! DEFINITION. The register map: every control and status register of "Register map", with the fields,
access codes, Power-on values and Wake rules of the chapter that defines it (R14, R18 to R22, R652 to R654),
and the address of every register under its own name. -/

namespace Sys2Proof.Machine

/-- The access codes of R14. -/
inductive Access where
  | rw
  | ro
  | w1c
  | w1s
  | wo
  | rc
  | rl
deriving DecidableEq, Repr

/-- The values a field takes: R19 refuses any other. -/
inductive Legal where
  | any
  | le (n : Nat)
  | range (lo hi : Nat)
  | oneOf (vs : List Nat)
deriving DecidableEq, Repr

/-- One named field of a register table: its bits, access code, Power-on value, whether its Wake column
reads "kept" (R22), and the values it takes (R19). Bits of a register that no field names are reserved (R18). -/
structure FieldSpec where
  hi    : Nat
  lo    : Nat
  acc   : Access
  pon   : Nat
  kept  : Bool
  legal : Legal
deriving DecidableEq, Repr

/-- The registers of the map, by the manual's names. Runs of counters that share a layout have one name
and an index in address order. -/
inductive RegName where
  | SYS_ID
  | SYS_DET
  | SYS_COLL
  | SYS_COLL_ADDR
  | HPx_LINK
  | HPx_IRQ_STAT
  | HPx_IRQ_EN
  | HPx_AFLT
  | HPx_AFLT_ADDR
  | HPx_CNT_AFLT
  | HPx_PTM_STAT
  | HPx_SEDB
  | HPx_RING_BASE
  | HPx_CPL_BASE
  | HPx_CPL_SHADOW
  | HPx_RING_CFG
  | HPx_RING_STAT
  | HPx_RING_DB
  | HPx_RING_HEAD
  | HPx_CPL_DB
  | HPx_CPL_TAIL
  | MSIX_TABLE
  | MSIX_PBA
  | SEM_TRY
  | SEM_REL
  | SEM_CTRL
  | SEM_HELD
  | SEM_CNT_ORDER
  | TXN_CTRL
  | TXN_STAT
  | TXN_TIME
  | TXN_SDATA
  | TXN_ERR
  | EVT_CTRL
  | EVT_STAT
  | EVT_NOW
  | EVT_HEAP
  | EVT_HEAPQ
  | EVT_CNT
  | EVT_HMAP_CTRL
  | EVT_HMAP_STAT
  | EVT_HMAP_H0
  | EVT_HMAP_E0
  | EVT_HMAP_K
  | EVT_SRC
  | EVT_SRC_MODE
  | EVT_PARTMAP
  | VAL_CTRL
  | VAL_STAT
  | VAL_OCC
  | VAL_CNT
  | VAL_PART_OWNER
  | VAL_PART_QUOTA
  | VAL_PART_CFG
  | VAL_PART_PROG
  | VAL_PART_LIVE
  | VAL_TAIL
  | VAL_SLOT
  | PUP_CTRL
  | PUP_STAT
  | PUP_ADMIT
  | PUP_ADMIT_MEM
  | PUP_PLAN
  | PUP_INTAKE
  | PUP_CNT
  | PUP_QSEL
  | PUP_QVIEW
  | PUP_QDEPTH
  | PUP_WAIT
  | PUP_LOAD
  | PUP_PLANLOAD
  | PUP_CCNT
  | PUP_PDIR_LOC
  | PUP_PDIR_HDR
  | PUP_PDIR_TRAP
  | PUP_TASK_CFG
  | PUP_TASK_MEM
  | PUP_TASK_IN
  | PUP_VPLACE
  | MOD_CTRL
  | MOD_STAT
  | MOD_SEED
  | MOD_CNT
  | MOD_TEVAL
  | MOD_PART_PATCH
  | MOD_PART_NSEL
  | MOD_PART_DFMT
  | MOD_PART_CSEL
  | VE_STAT
  | VE_BUNDLES
  | VE_CTRL
  | VE_FAULT
  | VE_FAULTPC
  | VE_FAULTADDR
  | VE_CNT
  | VE_DBG_SEL
  | VE_DBG_DATA
  | WS_STAT
  | WS_OWN
  | WS_CNT_ACC
  | WS_CNT_COLL
  | WS_WAIT
  | WS_CNT_REFUSED
  | COL_CTRL
  | COL_STAT
  | COL_DRAIN
  | COL_CNT
  | COL_BUS
  | COL_IN
  | OUT_TDM_CFG
  | OUT_SPDIF_TX
  | OUT_SPDIF_RX
  | OUT_SPDIF_RXCS
  | OUT_CNT_RXZERO
  | OUT_MAP
  | OUT_MAP_DAC
  | DAC_CTRL
  | DAC_STAT
  | DAC_STROBE
  | DAC_GCFG
  | DAC_CNT
  | DAC_CH_CFG
  | DAC_CH_CODE
  | DAC_CH_PUF
  | DAC_CH_STAT
  | DAC_CH_CAL
  | MCK_CTRL
  | MCK_GLIDE
  | MCK_STAT
  | MCK_FREQ
  | MCK_PHASE
  | MCK_HOLD
  | MCK_REF
  | MCK_YREF
  | MCK_CNT
  | UART_CFG
  | UART_DIV
  | UART_CTRL
  | UART_STAT
  | UART_IEN
  | UART_RXD
  | UART_TXD
  | UART_FHDR
  | UART_FTXD
  | UART_CNT
  | UART_FID
  | TMR_CFG
  | TMR_COUNT
  | TMR_STAT
  | TMR_EXPSUM
  | TMR_REFNOW
  | CHK_CFG
  | CHK_POLY
  | CHK_INIT
  | CHK_XOROUT
  | CHK_CTRL
  | CHK_DIN
  | CHK_CRC
  | CHK_ACFG
  | CHK_AIN
  | CHK_ASTAT
  | CHK_CNT
  | SEC_STAT
  | SEC_SVN
  | SEC_LRH
  | SEC_MKH
  | SEC_MKH_STG
  | SEC_FUSE_CTRL
  | SEC_CNT
  | SEC_IDPUB
  | SEC_PMEAS
  | SEC_SEAL_REQ
  | SEC_SEAL_ST
  | SEC_DBG_CHAL
  | SEC_DBG_RESP
  | SEC_DBG_CTRL
  | SEC_ATT_BODY
  | SEC_ATT_CTRL
  | SEC_ATT_STAT
  | SEC_ATT_SIG
  | NVM_CMD
  | NVM_STAT
  | NVM_CNT
  | NVM_SRC
  | NVM_LEN
  | NVM_RINFO
  | PWR_REQ
  | PWR_REQSET
  | PWR_REQCLR
  | PWR_STAT
  | PWR_OPP
  | PWR_SAG_THR
  | PWR_SAG_CFG
  | PWR_CNT
  | AGE_CTRL
  | AGE_STAT
  | AGE_PLAN
  | AGE_DRIFT
  | AGE_HOURS
  | AGE_CLU
  | AGE_CNT
  | AGE_SENT
  | STG_CTRL
  | STG_STAT
  | STG_WAKE
  | STG_DOORBELL
  | STG_LOAD_SRC
  | STG_LOAD_ST
  | STG_FAULT
  | STG_FAULTPC
  | STG_FAULTADDR
  | STG_CNT_FAULT
  | STG_SVC_STAT
  | STG_SVC_POP
  | STG_SVC_HEAD
  | STG_SENDBUF
  | STG_SENDGO
  | STG_SENDST
  | STG_DBG_SEL
  | STG_DBG_DATA
deriving DecidableEq, Repr

/-- One register or register array of the map: element `i`, `j` lies at `base + s1 * i + s2 * j`. -/
structure RegSpec where
  name   : RegName
  base   : Nat
  n1     : Nat
  s1     : Nat
  n2     : Nat
  s2     : Nat
  /-- A 64-bit register of R654: it occupies the words at the address and at the address plus 4. -/
  wide   : Bool
  fields : List FieldSpec
deriving DecidableEq, Repr

/-- A field that takes its Wake value at every start-up. -/
def fd (hi lo : Nat) (acc : Access) (pon : Nat) (legal : Legal) : FieldSpec :=
  { hi := hi, lo := lo, acc := acc, pon := pon, kept := false, legal := legal }

/-- A field whose Wake column reads "kept". -/
def kf (hi lo : Nat) (acc : Access) (pon : Nat) (legal : Legal) : FieldSpec :=
  { hi := hi, lo := lo, acc := acc, pon := pon, kept := true, legal := legal }

/-- Address of SYS_ID. -/
def Reg.SYS_ID : Nat := 0x07000000
/-- Address of SYS_DET. -/
def Reg.SYS_DET : Nat := 0x07000020
/-- Address of SYS_COLL. -/
def Reg.SYS_COLL : Nat := 0x07000030
/-- Address of SYS_COLL_ADDR. -/
def Reg.SYS_COLL_ADDR : Nat := 0x07000034
/-- Address of element `i` of HPx_LINK. -/
def Reg.HPx_LINK (i : Nat) : Nat := 0x07010000 + 0x10000 * i
/-- Address of element `i` of HPx_IRQ_STAT. -/
def Reg.HPx_IRQ_STAT (i : Nat) : Nat := 0x07010010 + 0x10000 * i
/-- Address of element `i` of HPx_IRQ_EN. -/
def Reg.HPx_IRQ_EN (i : Nat) : Nat := 0x07010014 + 0x10000 * i
/-- Address of element `i` of HPx_AFLT. -/
def Reg.HPx_AFLT (i : Nat) : Nat := 0x07010020 + 0x10000 * i
/-- Address of element `i` of HPx_AFLT_ADDR. -/
def Reg.HPx_AFLT_ADDR (i : Nat) : Nat := 0x07010024 + 0x10000 * i
/-- Address of element `i` of HPx_CNT_AFLT. -/
def Reg.HPx_CNT_AFLT (i : Nat) : Nat := 0x07010028 + 0x10000 * i
/-- Address of element `i` of HPx_PTM_STAT. -/
def Reg.HPx_PTM_STAT (i : Nat) : Nat := 0x07010030 + 0x10000 * i
/-- Address of element `i` of HPx_SEDB. -/
def Reg.HPx_SEDB (i : Nat) : Nat := 0x07010040 + 0x10000 * i
/-- Address of element `i`, `j` of HPx_RING_BASE. -/
def Reg.HPx_RING_BASE (i j : Nat) : Nat := 0x07010100 + 0x10000 * i + 0x40 * j
/-- Address of element `i`, `j` of HPx_CPL_BASE. -/
def Reg.HPx_CPL_BASE (i j : Nat) : Nat := 0x07010108 + 0x10000 * i + 0x40 * j
/-- Address of element `i`, `j` of HPx_CPL_SHADOW. -/
def Reg.HPx_CPL_SHADOW (i j : Nat) : Nat := 0x07010110 + 0x10000 * i + 0x40 * j
/-- Address of element `i`, `j` of HPx_RING_CFG. -/
def Reg.HPx_RING_CFG (i j : Nat) : Nat := 0x07010118 + 0x10000 * i + 0x40 * j
/-- Address of element `i`, `j` of HPx_RING_STAT. -/
def Reg.HPx_RING_STAT (i j : Nat) : Nat := 0x0701011c + 0x10000 * i + 0x40 * j
/-- Address of element `i`, `j` of HPx_RING_DB. -/
def Reg.HPx_RING_DB (i j : Nat) : Nat := 0x07010120 + 0x10000 * i + 0x40 * j
/-- Address of element `i`, `j` of HPx_RING_HEAD. -/
def Reg.HPx_RING_HEAD (i j : Nat) : Nat := 0x07010124 + 0x10000 * i + 0x40 * j
/-- Address of element `i`, `j` of HPx_CPL_DB. -/
def Reg.HPx_CPL_DB (i j : Nat) : Nat := 0x07010128 + 0x10000 * i + 0x40 * j
/-- Address of element `i`, `j` of HPx_CPL_TAIL. -/
def Reg.HPx_CPL_TAIL (i j : Nat) : Nat := 0x0701012c + 0x10000 * i + 0x40 * j
/-- Address of element `i`, `j` of MSIX_TABLE. -/
def Reg.MSIX_TABLE (i j : Nat) : Nat := 0x07018000 + 0x10000 * i + 0x4 * j
/-- Address of element `i`, `j` of MSIX_PBA. -/
def Reg.MSIX_PBA (i j : Nat) : Nat := 0x07019000 + 0x10000 * i + 0x4 * j
/-- Address of element `i` of SEM_TRY. -/
def Reg.SEM_TRY (i : Nat) : Nat := 0x07030000 + 0x4 * i
/-- Address of element `i` of SEM_REL. -/
def Reg.SEM_REL (i : Nat) : Nat := 0x07030100 + 0x4 * i
/-- Address of SEM_CTRL. -/
def Reg.SEM_CTRL : Nat := 0x07030200
/-- Address of SEM_HELD. -/
def Reg.SEM_HELD : Nat := 0x07030208
/-- Address of SEM_CNT_ORDER. -/
def Reg.SEM_CNT_ORDER : Nat := 0x07030210
/-- Address of element `i` of TXN_CTRL. -/
def Reg.TXN_CTRL (i : Nat) : Nat := 0x07040000 + 0x40 * i
/-- Address of element `i` of TXN_STAT. -/
def Reg.TXN_STAT (i : Nat) : Nat := 0x07040004 + 0x40 * i
/-- Address of element `i` of TXN_TIME. -/
def Reg.TXN_TIME (i : Nat) : Nat := 0x07040008 + 0x40 * i
/-- Address of element `i` of TXN_SDATA. -/
def Reg.TXN_SDATA (i : Nat) : Nat := 0x07040010 + 0x40 * i
/-- Address of element `i` of TXN_ERR. -/
def Reg.TXN_ERR (i : Nat) : Nat := 0x07040018 + 0x40 * i
/-- Address of EVT_CTRL. -/
def Reg.EVT_CTRL : Nat := 0x07050000
/-- Address of EVT_STAT. -/
def Reg.EVT_STAT : Nat := 0x07050004
/-- Address of EVT_NOW. -/
def Reg.EVT_NOW : Nat := 0x07050008
/-- Address of EVT_HEAP. -/
def Reg.EVT_HEAP : Nat := 0x07050010
/-- Address of EVT_HEAPQ. -/
def Reg.EVT_HEAPQ : Nat := 0x07050014
/-- Address of element `i` of EVT_CNT. -/
def Reg.EVT_CNT (i : Nat) : Nat := 0x07050040 + 0x4 * i
/-- Address of element `i` of EVT_HMAP_CTRL. -/
def Reg.EVT_HMAP_CTRL (i : Nat) : Nat := 0x07050100 + 0x40 * i
/-- Address of element `i` of EVT_HMAP_STAT. -/
def Reg.EVT_HMAP_STAT (i : Nat) : Nat := 0x07050104 + 0x40 * i
/-- Address of element `i` of EVT_HMAP_H0. -/
def Reg.EVT_HMAP_H0 (i : Nat) : Nat := 0x07050108 + 0x40 * i
/-- Address of element `i` of EVT_HMAP_E0. -/
def Reg.EVT_HMAP_E0 (i : Nat) : Nat := 0x07050110 + 0x40 * i
/-- Address of element `i` of EVT_HMAP_K. -/
def Reg.EVT_HMAP_K (i : Nat) : Nat := 0x07050118 + 0x40 * i
/-- Address of element `i` of EVT_SRC. -/
def Reg.EVT_SRC (i : Nat) : Nat := 0x07050200 + 0x4 * i
/-- Address of element `i` of EVT_SRC_MODE. -/
def Reg.EVT_SRC_MODE (i : Nat) : Nat := 0x07050240 + 0x4 * i
/-- Address of element `i` of EVT_PARTMAP. -/
def Reg.EVT_PARTMAP (i : Nat) : Nat := 0x07050400 + 0x4 * i
/-- Address of VAL_CTRL. -/
def Reg.VAL_CTRL : Nat := 0x07060000
/-- Address of VAL_STAT. -/
def Reg.VAL_STAT : Nat := 0x07060004
/-- Address of VAL_OCC. -/
def Reg.VAL_OCC : Nat := 0x07060008
/-- Address of element `i` of VAL_CNT. -/
def Reg.VAL_CNT (i : Nat) : Nat := 0x07060020 + 0x4 * i
/-- Address of element `i` of VAL_PART_OWNER. -/
def Reg.VAL_PART_OWNER (i : Nat) : Nat := 0x07061000 + 0x4 * i
/-- Address of element `i` of VAL_PART_QUOTA. -/
def Reg.VAL_PART_QUOTA (i : Nat) : Nat := 0x07062000 + 0x4 * i
/-- Address of element `i` of VAL_PART_CFG. -/
def Reg.VAL_PART_CFG (i : Nat) : Nat := 0x07063000 + 0x4 * i
/-- Address of element `i` of VAL_PART_PROG. -/
def Reg.VAL_PART_PROG (i : Nat) : Nat := 0x07064000 + 0x4 * i
/-- Address of element `i` of VAL_PART_LIVE. -/
def Reg.VAL_PART_LIVE (i : Nat) : Nat := 0x07065000 + 0x4 * i
/-- Address of element `i` of VAL_TAIL. -/
def Reg.VAL_TAIL (i : Nat) : Nat := 0x07066000 + 0x4 * i
/-- Address of element `i` of VAL_SLOT. -/
def Reg.VAL_SLOT (i : Nat) : Nat := 0x07068000 + 0x4 * i
/-- Address of PUP_CTRL. -/
def Reg.PUP_CTRL : Nat := 0x07070000
/-- Address of PUP_STAT. -/
def Reg.PUP_STAT : Nat := 0x07070004
/-- Address of PUP_ADMIT. -/
def Reg.PUP_ADMIT : Nat := 0x07070008
/-- Address of PUP_ADMIT_MEM. -/
def Reg.PUP_ADMIT_MEM : Nat := 0x07070010
/-- Address of PUP_PLAN. -/
def Reg.PUP_PLAN : Nat := 0x07070018
/-- Address of PUP_INTAKE. -/
def Reg.PUP_INTAKE : Nat := 0x0707001c
/-- Address of element `i` of PUP_CNT. -/
def Reg.PUP_CNT (i : Nat) : Nat := 0x07070020 + 0x4 * i
/-- Address of PUP_QSEL. -/
def Reg.PUP_QSEL : Nat := 0x07070040
/-- Address of PUP_QVIEW. -/
def Reg.PUP_QVIEW : Nat := 0x07070048
/-- Address of element `i` of PUP_QDEPTH. -/
def Reg.PUP_QDEPTH (i : Nat) : Nat := 0x07070400 + 0x20 * i
/-- Address of element `i` of PUP_WAIT. -/
def Reg.PUP_WAIT (i : Nat) : Nat := 0x07070404 + 0x20 * i
/-- Address of element `i` of PUP_LOAD. -/
def Reg.PUP_LOAD (i : Nat) : Nat := 0x07070408 + 0x20 * i
/-- Address of element `i` of PUP_PLANLOAD. -/
def Reg.PUP_PLANLOAD (i : Nat) : Nat := 0x0707040c + 0x20 * i
/-- Address of element `i`, `j` of PUP_CCNT. -/
def Reg.PUP_CCNT (i j : Nat) : Nat := 0x07070410 + 0x20 * i + 0x4 * j
/-- Address of element `i` of PUP_PDIR_LOC. -/
def Reg.PUP_PDIR_LOC (i : Nat) : Nat := 0x07071000 + 0x10 * i
/-- Address of element `i` of PUP_PDIR_HDR. -/
def Reg.PUP_PDIR_HDR (i : Nat) : Nat := 0x07071004 + 0x10 * i
/-- Address of element `i` of PUP_PDIR_TRAP. -/
def Reg.PUP_PDIR_TRAP (i : Nat) : Nat := 0x07071008 + 0x10 * i
/-- Address of element `i` of PUP_TASK_CFG. -/
def Reg.PUP_TASK_CFG (i : Nat) : Nat := 0x07075000 + 0x10 * i
/-- Address of element `i` of PUP_TASK_MEM. -/
def Reg.PUP_TASK_MEM (i : Nat) : Nat := 0x07075004 + 0x10 * i
/-- Address of element `i` of PUP_TASK_IN. -/
def Reg.PUP_TASK_IN (i : Nat) : Nat := 0x07075008 + 0x10 * i
/-- Address of element `i` of PUP_VPLACE. -/
def Reg.PUP_VPLACE (i : Nat) : Nat := 0x07076000 + 0x4 * i
/-- Address of MOD_CTRL. -/
def Reg.MOD_CTRL : Nat := 0x07080000
/-- Address of MOD_STAT. -/
def Reg.MOD_STAT : Nat := 0x07080004
/-- Address of MOD_SEED. -/
def Reg.MOD_SEED : Nat := 0x07080008
/-- Address of element `i` of MOD_CNT. -/
def Reg.MOD_CNT (i : Nat) : Nat := 0x07080020 + 0x4 * i
/-- Address of element `i` of MOD_TEVAL. -/
def Reg.MOD_TEVAL (i : Nat) : Nat := 0x07080040 + 0x4 * i
/-- Address of element `i` of MOD_PART_PATCH. -/
def Reg.MOD_PART_PATCH (i : Nat) : Nat := 0x07081000 + 0x4 * i
/-- Address of element `i`, `j` of MOD_PART_NSEL. -/
def Reg.MOD_PART_NSEL (i j : Nat) : Nat := 0x07082000 + 0x8 * i + 0x4 * j
/-- Address of element `i`, `j` of MOD_PART_DFMT. -/
def Reg.MOD_PART_DFMT (i j : Nat) : Nat := 0x07084000 + 0x10 * i + 0x4 * j
/-- Address of element `i`, `j` of MOD_PART_CSEL. -/
def Reg.MOD_PART_CSEL (i j : Nat) : Nat := 0x07088000 + 0x10 * i + 0x4 * j
/-- Address of element `i` of VE_STAT. -/
def Reg.VE_STAT (i : Nat) : Nat := 0x07090000 + 0x100 * i
/-- Address of element `i` of VE_BUNDLES. -/
def Reg.VE_BUNDLES (i : Nat) : Nat := 0x07090008 + 0x100 * i
/-- Address of element `i` of VE_CTRL. -/
def Reg.VE_CTRL (i : Nat) : Nat := 0x07090020 + 0x100 * i
/-- Address of element `i` of VE_FAULT. -/
def Reg.VE_FAULT (i : Nat) : Nat := 0x07090024 + 0x100 * i
/-- Address of element `i` of VE_FAULTPC. -/
def Reg.VE_FAULTPC (i : Nat) : Nat := 0x07090028 + 0x100 * i
/-- Address of element `i` of VE_FAULTADDR. -/
def Reg.VE_FAULTADDR (i : Nat) : Nat := 0x0709002c + 0x100 * i
/-- Address of element `i`, `j` of VE_CNT. -/
def Reg.VE_CNT (i j : Nat) : Nat := 0x07090030 + 0x100 * i + 0x4 * j
/-- Address of element `i` of VE_DBG_SEL. -/
def Reg.VE_DBG_SEL (i : Nat) : Nat := 0x07090040 + 0x100 * i
/-- Address of element `i` of VE_DBG_DATA. -/
def Reg.VE_DBG_DATA (i : Nat) : Nat := 0x07090048 + 0x100 * i
/-- Address of WS_STAT. -/
def Reg.WS_STAT : Nat := 0x070a0000
/-- Address of element `i` of WS_OWN. -/
def Reg.WS_OWN (i : Nat) : Nat := 0x070a0100 + 0x4 * i
/-- Address of element `i` of WS_CNT_ACC. -/
def Reg.WS_CNT_ACC (i : Nat) : Nat := 0x070a0400 + 0x10 * i
/-- Address of element `i` of WS_CNT_COLL. -/
def Reg.WS_CNT_COLL (i : Nat) : Nat := 0x070a0404 + 0x10 * i
/-- Address of element `i` of WS_WAIT. -/
def Reg.WS_WAIT (i : Nat) : Nat := 0x070a0408 + 0x10 * i
/-- Address of element `i` of WS_CNT_REFUSED. -/
def Reg.WS_CNT_REFUSED (i : Nat) : Nat := 0x070a040c + 0x10 * i
/-- Address of COL_CTRL. -/
def Reg.COL_CTRL : Nat := 0x070b0000
/-- Address of COL_STAT. -/
def Reg.COL_STAT : Nat := 0x070b0004
/-- Address of COL_DRAIN. -/
def Reg.COL_DRAIN : Nat := 0x070b0008
/-- Address of element `i` of COL_CNT. -/
def Reg.COL_CNT (i : Nat) : Nat := 0x070b0020 + 0x4 * i
/-- Address of element `i` of COL_BUS. -/
def Reg.COL_BUS (i : Nat) : Nat := 0x070b0400 + 0x4 * i
/-- Address of element `i` of COL_IN. -/
def Reg.COL_IN (i : Nat) : Nat := 0x070b0800 + 0x4 * i
/-- Address of element `i` of OUT_TDM_CFG. -/
def Reg.OUT_TDM_CFG (i : Nat) : Nat := 0x070c0000 + 0x4 * i
/-- Address of OUT_SPDIF_TX. -/
def Reg.OUT_SPDIF_TX : Nat := 0x070c0020
/-- Address of OUT_SPDIF_RX. -/
def Reg.OUT_SPDIF_RX : Nat := 0x070c0024
/-- Address of OUT_SPDIF_RXCS. -/
def Reg.OUT_SPDIF_RXCS : Nat := 0x070c0028
/-- Address of OUT_CNT_RXZERO. -/
def Reg.OUT_CNT_RXZERO : Nat := 0x070c0030
/-- Address of element `i` of OUT_MAP. -/
def Reg.OUT_MAP (i : Nat) : Nat := 0x070c0100 + 0x4 * i
/-- Address of element `i` of OUT_MAP_DAC. -/
def Reg.OUT_MAP_DAC (i : Nat) : Nat := 0x070c0220 + 0x4 * i
/-- Address of DAC_CTRL. -/
def Reg.DAC_CTRL : Nat := 0x070d0000
/-- Address of DAC_STAT. -/
def Reg.DAC_STAT : Nat := 0x070d0004
/-- Address of DAC_STROBE. -/
def Reg.DAC_STROBE : Nat := 0x070d0008
/-- Address of element `i` of DAC_GCFG. -/
def Reg.DAC_GCFG (i : Nat) : Nat := 0x070d0010 + 0x4 * i
/-- Address of element `i` of DAC_CNT. -/
def Reg.DAC_CNT (i : Nat) : Nat := 0x070d0020 + 0x4 * i
/-- Address of element `i` of DAC_CH_CFG. -/
def Reg.DAC_CH_CFG (i : Nat) : Nat := 0x070d0100 + 0x20 * i
/-- Address of element `i` of DAC_CH_CODE. -/
def Reg.DAC_CH_CODE (i : Nat) : Nat := 0x070d0104 + 0x20 * i
/-- Address of element `i` of DAC_CH_PUF. -/
def Reg.DAC_CH_PUF (i : Nat) : Nat := 0x070d0108 + 0x20 * i
/-- Address of element `i` of DAC_CH_STAT. -/
def Reg.DAC_CH_STAT (i : Nat) : Nat := 0x070d010c + 0x20 * i
/-- Address of element `i` of DAC_CH_CAL. -/
def Reg.DAC_CH_CAL (i : Nat) : Nat := 0x070d0110 + 0x20 * i
/-- Address of MCK_CTRL. -/
def Reg.MCK_CTRL : Nat := 0x070e0000
/-- Address of MCK_GLIDE. -/
def Reg.MCK_GLIDE : Nat := 0x070e0004
/-- Address of MCK_STAT. -/
def Reg.MCK_STAT : Nat := 0x070e0008
/-- Address of MCK_FREQ. -/
def Reg.MCK_FREQ : Nat := 0x070e000c
/-- Address of MCK_PHASE. -/
def Reg.MCK_PHASE : Nat := 0x070e0010
/-- Address of MCK_HOLD. -/
def Reg.MCK_HOLD : Nat := 0x070e0014
/-- Address of element `i` of MCK_REF. -/
def Reg.MCK_REF (i : Nat) : Nat := 0x070e0020 + 0x4 * i
/-- Address of element `i` of MCK_YREF. -/
def Reg.MCK_YREF (i : Nat) : Nat := 0x070e0040 + 0x4 * i
/-- Address of element `i` of MCK_CNT. -/
def Reg.MCK_CNT (i : Nat) : Nat := 0x070e0060 + 0x4 * i
/-- Address of element `i` of UART_CFG. -/
def Reg.UART_CFG (i : Nat) : Nat := 0x070f0000 + 0x400 * i
/-- Address of element `i` of UART_DIV. -/
def Reg.UART_DIV (i : Nat) : Nat := 0x070f0004 + 0x400 * i
/-- Address of element `i` of UART_CTRL. -/
def Reg.UART_CTRL (i : Nat) : Nat := 0x070f0008 + 0x400 * i
/-- Address of element `i` of UART_STAT. -/
def Reg.UART_STAT (i : Nat) : Nat := 0x070f000c + 0x400 * i
/-- Address of element `i` of UART_IEN. -/
def Reg.UART_IEN (i : Nat) : Nat := 0x070f0010 + 0x400 * i
/-- Address of element `i` of UART_RXD. -/
def Reg.UART_RXD (i : Nat) : Nat := 0x070f0014 + 0x400 * i
/-- Address of element `i` of UART_TXD. -/
def Reg.UART_TXD (i : Nat) : Nat := 0x070f0018 + 0x400 * i
/-- Address of element `i` of UART_FHDR. -/
def Reg.UART_FHDR (i : Nat) : Nat := 0x070f001c + 0x400 * i
/-- Address of element `i`, `j` of UART_FTXD. -/
def Reg.UART_FTXD (i j : Nat) : Nat := 0x070f0020 + 0x400 * i + 0x4 * j
/-- Address of element `i`, `j` of UART_CNT. -/
def Reg.UART_CNT (i j : Nat) : Nat := 0x070f0040 + 0x400 * i + 0x4 * j
/-- Address of element `i`, `j` of UART_FID. -/
def Reg.UART_FID (i j : Nat) : Nat := 0x070f0100 + 0x400 * i + 0x4 * j
/-- Address of element `i` of TMR_CFG. -/
def Reg.TMR_CFG (i : Nat) : Nat := 0x07100000 + 0x10 * i
/-- Address of element `i` of TMR_COUNT. -/
def Reg.TMR_COUNT (i : Nat) : Nat := 0x07100004 + 0x10 * i
/-- Address of element `i` of TMR_STAT. -/
def Reg.TMR_STAT (i : Nat) : Nat := 0x07100008 + 0x10 * i
/-- Address of TMR_EXPSUM. -/
def Reg.TMR_EXPSUM : Nat := 0x07100100
/-- Address of TMR_REFNOW. -/
def Reg.TMR_REFNOW : Nat := 0x07100108
/-- Address of element `i` of CHK_CFG. -/
def Reg.CHK_CFG (i : Nat) : Nat := 0x07110000 + 0x40 * i
/-- Address of element `i` of CHK_POLY. -/
def Reg.CHK_POLY (i : Nat) : Nat := 0x07110004 + 0x40 * i
/-- Address of element `i` of CHK_INIT. -/
def Reg.CHK_INIT (i : Nat) : Nat := 0x07110008 + 0x40 * i
/-- Address of element `i` of CHK_XOROUT. -/
def Reg.CHK_XOROUT (i : Nat) : Nat := 0x0711000c + 0x40 * i
/-- Address of element `i` of CHK_CTRL. -/
def Reg.CHK_CTRL (i : Nat) : Nat := 0x07110010 + 0x40 * i
/-- Address of element `i`, `j` of CHK_DIN. -/
def Reg.CHK_DIN (i j : Nat) : Nat := 0x07110014 + 0x40 * i + 0x4 * j
/-- Address of element `i` of CHK_CRC. -/
def Reg.CHK_CRC (i : Nat) : Nat := 0x07110024 + 0x40 * i
/-- Address of element `i` of CHK_ACFG. -/
def Reg.CHK_ACFG (i : Nat) : Nat := 0x07110028 + 0x40 * i
/-- Address of element `i` of CHK_AIN. -/
def Reg.CHK_AIN (i : Nat) : Nat := 0x0711002c + 0x40 * i
/-- Address of element `i` of CHK_ASTAT. -/
def Reg.CHK_ASTAT (i : Nat) : Nat := 0x07110030 + 0x40 * i
/-- Address of element `i`, `j` of CHK_CNT. -/
def Reg.CHK_CNT (i j : Nat) : Nat := 0x07110034 + 0x40 * i + 0x4 * j
/-- Address of SEC_STAT. -/
def Reg.SEC_STAT : Nat := 0x07120000
/-- Address of SEC_SVN. -/
def Reg.SEC_SVN : Nat := 0x07120004
/-- Address of element `i` of SEC_LRH. -/
def Reg.SEC_LRH (i : Nat) : Nat := 0x07120010 + 0x4 * i
/-- Address of element `i` of SEC_MKH. -/
def Reg.SEC_MKH (i : Nat) : Nat := 0x07120030 + 0x4 * i
/-- Address of element `i` of SEC_MKH_STG. -/
def Reg.SEC_MKH_STG (i : Nat) : Nat := 0x07120050 + 0x4 * i
/-- Address of SEC_FUSE_CTRL. -/
def Reg.SEC_FUSE_CTRL : Nat := 0x0712006c
/-- Address of element `i` of SEC_CNT. -/
def Reg.SEC_CNT (i : Nat) : Nat := 0x07120070 + 0x4 * i
/-- Address of element `i` of SEC_IDPUB. -/
def Reg.SEC_IDPUB (i : Nat) : Nat := 0x07120100 + 0x4 * i
/-- Address of element `i` of SEC_PMEAS. -/
def Reg.SEC_PMEAS (i : Nat) : Nat := 0x07120180 + 0x4 * i
/-- Address of SEC_SEAL_REQ. -/
def Reg.SEC_SEAL_REQ : Nat := 0x07120200
/-- Address of SEC_SEAL_ST. -/
def Reg.SEC_SEAL_ST : Nat := 0x07120204
/-- Address of element `i`, `j` of SEC_DBG_CHAL. -/
def Reg.SEC_DBG_CHAL (i j : Nat) : Nat := 0x07120800 + 0x200 * i + 0x4 * j
/-- Address of element `i`, `j` of SEC_DBG_RESP. -/
def Reg.SEC_DBG_RESP (i j : Nat) : Nat := 0x07120840 + 0x200 * i + 0x4 * j
/-- Address of element `i` of SEC_DBG_CTRL. -/
def Reg.SEC_DBG_CTRL (i : Nat) : Nat := 0x07120910 + 0x200 * i
/-- Address of element `i`, `j` of SEC_ATT_BODY. -/
def Reg.SEC_ATT_BODY (i j : Nat) : Nat := 0x07121000 + 0x200 * i + 0x4 * j
/-- Address of element `i` of SEC_ATT_CTRL. -/
def Reg.SEC_ATT_CTRL (i : Nat) : Nat := 0x071210e0 + 0x200 * i
/-- Address of element `i` of SEC_ATT_STAT. -/
def Reg.SEC_ATT_STAT (i : Nat) : Nat := 0x071210e4 + 0x200 * i
/-- Address of element `i`, `j` of SEC_ATT_SIG. -/
def Reg.SEC_ATT_SIG (i j : Nat) : Nat := 0x07121100 + 0x200 * i + 0x4 * j
/-- Address of NVM_CMD. -/
def Reg.NVM_CMD : Nat := 0x07130000
/-- Address of NVM_STAT. -/
def Reg.NVM_STAT : Nat := 0x07130004
/-- Address of element `i` of NVM_CNT. -/
def Reg.NVM_CNT (i : Nat) : Nat := 0x07130020 + 0x4 * i
/-- Address of element `i` of NVM_SRC. -/
def Reg.NVM_SRC (i : Nat) : Nat := 0x07130040 + 0x8 * i
/-- Address of element `i` of NVM_LEN. -/
def Reg.NVM_LEN (i : Nat) : Nat := 0x07130044 + 0x8 * i
/-- Address of element `i` of NVM_RINFO. -/
def Reg.NVM_RINFO (i : Nat) : Nat := 0x07131000 + 0x8 * i
/-- Address of PWR_REQ. -/
def Reg.PWR_REQ : Nat := 0x07140000
/-- Address of PWR_REQSET. -/
def Reg.PWR_REQSET : Nat := 0x07140004
/-- Address of PWR_REQCLR. -/
def Reg.PWR_REQCLR : Nat := 0x07140008
/-- Address of PWR_STAT. -/
def Reg.PWR_STAT : Nat := 0x0714000c
/-- Address of PWR_OPP. -/
def Reg.PWR_OPP : Nat := 0x07140010
/-- Address of PWR_SAG_THR. -/
def Reg.PWR_SAG_THR : Nat := 0x07140014
/-- Address of PWR_SAG_CFG. -/
def Reg.PWR_SAG_CFG : Nat := 0x07140018
/-- Address of element `i` of PWR_CNT. -/
def Reg.PWR_CNT (i : Nat) : Nat := 0x07140020 + 0x4 * i
/-- Address of AGE_CTRL. -/
def Reg.AGE_CTRL : Nat := 0x07150000
/-- Address of AGE_STAT. -/
def Reg.AGE_STAT : Nat := 0x07150004
/-- Address of AGE_PLAN. -/
def Reg.AGE_PLAN : Nat := 0x07150008
/-- Address of AGE_DRIFT. -/
def Reg.AGE_DRIFT : Nat := 0x0715000c
/-- Address of AGE_HOURS. -/
def Reg.AGE_HOURS : Nat := 0x07150010
/-- Address of element `i` of AGE_CLU. -/
def Reg.AGE_CLU (i : Nat) : Nat := 0x07150020 + 0x4 * i
/-- Address of element `i` of AGE_CNT. -/
def Reg.AGE_CNT (i : Nat) : Nat := 0x07150040 + 0x4 * i
/-- Address of element `i` of AGE_SENT. -/
def Reg.AGE_SENT (i : Nat) : Nat := 0x07150100 + 0x4 * i
/-- Address of element `i` of STG_CTRL. -/
def Reg.STG_CTRL (i : Nat) : Nat := 0x07160000 + 0x100 * i
/-- Address of element `i` of STG_STAT. -/
def Reg.STG_STAT (i : Nat) : Nat := 0x07160004 + 0x100 * i
/-- Address of element `i` of STG_WAKE. -/
def Reg.STG_WAKE (i : Nat) : Nat := 0x07160008 + 0x100 * i
/-- Address of element `i` of STG_DOORBELL. -/
def Reg.STG_DOORBELL (i : Nat) : Nat := 0x0716000c + 0x100 * i
/-- Address of element `i` of STG_LOAD_SRC. -/
def Reg.STG_LOAD_SRC (i : Nat) : Nat := 0x07160010 + 0x100 * i
/-- Address of element `i` of STG_LOAD_ST. -/
def Reg.STG_LOAD_ST (i : Nat) : Nat := 0x07160014 + 0x100 * i
/-- Address of element `i` of STG_FAULT. -/
def Reg.STG_FAULT (i : Nat) : Nat := 0x07160018 + 0x100 * i
/-- Address of element `i` of STG_FAULTPC. -/
def Reg.STG_FAULTPC (i : Nat) : Nat := 0x0716001c + 0x100 * i
/-- Address of element `i` of STG_FAULTADDR. -/
def Reg.STG_FAULTADDR (i : Nat) : Nat := 0x07160020 + 0x100 * i
/-- Address of element `i` of STG_CNT_FAULT. -/
def Reg.STG_CNT_FAULT (i : Nat) : Nat := 0x07160024 + 0x100 * i
/-- Address of element `i` of STG_SVC_STAT. -/
def Reg.STG_SVC_STAT (i : Nat) : Nat := 0x07160028 + 0x100 * i
/-- Address of element `i` of STG_SVC_POP. -/
def Reg.STG_SVC_POP (i : Nat) : Nat := 0x0716002c + 0x100 * i
/-- Address of element `i`, `j` of STG_SVC_HEAD. -/
def Reg.STG_SVC_HEAD (i j : Nat) : Nat := 0x07160030 + 0x100 * i + 0x4 * j
/-- Address of element `i`, `j` of STG_SENDBUF. -/
def Reg.STG_SENDBUF (i j : Nat) : Nat := 0x07160050 + 0x100 * i + 0x4 * j
/-- Address of element `i` of STG_SENDGO. -/
def Reg.STG_SENDGO (i : Nat) : Nat := 0x07160068 + 0x100 * i
/-- Address of element `i` of STG_SENDST. -/
def Reg.STG_SENDST (i : Nat) : Nat := 0x0716006c + 0x100 * i
/-- Address of element `i` of STG_DBG_SEL. -/
def Reg.STG_DBG_SEL (i : Nat) : Nat := 0x07160070 + 0x100 * i
/-- Address of element `i` of STG_DBG_DATA. -/
def Reg.STG_DBG_DATA (i : Nat) : Nat := 0x07160078 + 0x100 * i

/-- The registers of the SYS block. -/
def mapSys : List RegSpec := [
  ⟨.SYS_ID, 0x07000000, 1, 0x0, 1, 0x0, false, [
    fd 31 16 .ro 0x5618 .any,
    fd 15 12 .ro 1 .any,
    fd 11 8 .ro 1 .any]⟩,
  ⟨.SYS_DET, 0x07000020, 1, 0x0, 1, 0x0, false, [
    fd 7 7 .w1c 0 .any,
    fd 6 6 .w1c 0 .any,
    fd 5 5 .w1c 0 .any,
    fd 4 4 .w1c 0 .any,
    fd 3 3 .w1c 0 .any,
    fd 2 2 .w1c 0 .any,
    fd 0 0 .ro 1 .any]⟩,
  ⟨.SYS_COLL, 0x07000030, 1, 0x0, 1, 0x0, false, [
    fd 3 3 .w1c 0 .any,
    fd 2 2 .w1c 0 .any,
    fd 1 1 .w1c 0 .any,
    fd 0 0 .w1c 0 .any]⟩,
  ⟨.SYS_COLL_ADDR, 0x07000034, 1, 0x0, 1, 0x0, false, [
    fd 31 0 .ro 0 .any]⟩]

/-- The registers of the HP block. -/
def mapHp : List RegSpec := [
  ⟨.HPx_LINK, 0x07010000, 2, 0x10000, 1, 0x0, false, [
    fd 29 28 .ro 0 .any,
    fd 27 24 .ro 0 .any,
    fd 7 4 .ro 0 .any,
    fd 3 0 .ro 0 .any]⟩,
  ⟨.HPx_IRQ_STAT, 0x07010010, 2, 0x10000, 1, 0x0, false, [
    fd 25 0 .w1c 0 .any]⟩,
  ⟨.HPx_IRQ_EN, 0x07010014, 2, 0x10000, 1, 0x0, false, [
    fd 25 0 .rw 0 .any]⟩,
  ⟨.HPx_AFLT, 0x07010020, 2, 0x10000, 1, 0x0, false, [
    fd 31 31 .w1c 0 .any,
    fd 30 30 .w1c 0 .any,
    fd 29 29 .ro 0 .any,
    fd 28 28 .ro 0 .any,
    fd 27 24 .ro 0 .any]⟩,
  ⟨.HPx_AFLT_ADDR, 0x07010024, 2, 0x10000, 1, 0x0, false, [
    fd 31 0 .ro 0 .any]⟩,
  ⟨.HPx_CNT_AFLT, 0x07010028, 2, 0x10000, 1, 0x0, false, [
    fd 31 0 .rc 0 .any]⟩,
  ⟨.HPx_PTM_STAT, 0x07010030, 2, 0x10000, 1, 0x0, false, [
    fd 31 16 .rc 0 .any,
    fd 15 0 .rc 0 .any]⟩,
  ⟨.HPx_SEDB, 0x07010040, 2, 0x10000, 1, 0x0, false, [
    fd 1 0 .w1s 0 .any]⟩,
  ⟨.HPx_RING_BASE, 0x07010100, 2, 0x10000, 4, 0x40, true, [
    fd 63 0 .rw 0 .any]⟩,
  ⟨.HPx_CPL_BASE, 0x07010108, 2, 0x10000, 4, 0x40, true, [
    fd 63 0 .rw 0 .any]⟩,
  ⟨.HPx_CPL_SHADOW, 0x07010110, 2, 0x10000, 4, 0x40, true, [
    fd 63 0 .rw 0 .any]⟩,
  ⟨.HPx_RING_CFG, 0x07010118, 2, 0x10000, 4, 0x40, false, [
    fd 31 31 .rw 0 .any,
    fd 3 0 .rw 4 (.range 4 12)]⟩,
  ⟨.HPx_RING_STAT, 0x0701011c, 2, 0x10000, 4, 0x40, false, [
    fd 31 31 .ro 0 .any,
    fd 7 0 .ro 0 .any]⟩,
  ⟨.HPx_RING_DB, 0x07010120, 2, 0x10000, 4, 0x40, false, [
    fd 11 0 .rw 0 .any]⟩,
  ⟨.HPx_RING_HEAD, 0x07010124, 2, 0x10000, 4, 0x40, false, [
    fd 11 0 .ro 0 .any]⟩,
  ⟨.HPx_CPL_DB, 0x07010128, 2, 0x10000, 4, 0x40, false, [
    fd 11 0 .rw 0 .any]⟩,
  ⟨.HPx_CPL_TAIL, 0x0701012c, 2, 0x10000, 4, 0x40, false, [
    fd 11 0 .ro 0 .any]⟩,
  ⟨.MSIX_TABLE, 0x07018000, 2, 0x10000, 128, 0x4, false, [
    fd 31 0 .rw 0 .any]⟩,
  ⟨.MSIX_PBA, 0x07019000, 2, 0x10000, 2, 0x4, false, [
    fd 31 0 .ro 0 .any]⟩]

/-- The registers of the SEM block. -/
def mapSem : List RegSpec := [
  ⟨.SEM_TRY, 0x07030000, 64, 0x4, 1, 0x0, false, [
    fd 31 31 .ro 0 .any,
    fd 30 30 .ro 0 .any,
    fd 29 29 .ro 0 .any,
    fd 2 0 .ro 0 .any]⟩,
  ⟨.SEM_REL, 0x07030100, 64, 0x4, 1, 0x0, false, [
    fd 0 0 .wo 0 .any]⟩,
  ⟨.SEM_CTRL, 0x07030200, 1, 0x0, 1, 0x0, false, [
    kf 0 0 .rw 0 .any]⟩,
  ⟨.SEM_HELD, 0x07030208, 1, 0x0, 1, 0x0, true, [
    fd 63 32 .ro 0 .any,
    fd 31 0 .rl 0 .any]⟩,
  ⟨.SEM_CNT_ORDER, 0x07030210, 1, 0x0, 1, 0x0, false, [
    fd 31 0 .rc 0 .any]⟩]

/-- The registers of the TXN block. -/
def mapTxn : List RegSpec := [
  ⟨.TXN_CTRL, 0x07040000, 4, 0x40, 1, 0x0, false, [
    fd 2 2 .wo 0 .any,
    fd 1 1 .wo 0 .any,
    fd 0 0 .wo 0 .any]⟩,
  ⟨.TXN_STAT, 0x07040004, 4, 0x40, 1, 0x0, false, [
    fd 31 29 .ro 0 .any,
    fd 28 28 .ro 0 .any,
    fd 27 27 .ro 0 .any,
    fd 12 0 .ro 0 .any]⟩,
  ⟨.TXN_TIME, 0x07040008, 4, 0x40, 1, 0x0, true, [
    fd 63 0 .rw 0 .any]⟩,
  ⟨.TXN_SDATA, 0x07040010, 4, 0x40, 1, 0x0, true, [
    fd 63 32 .wo 0 .any,
    fd 31 0 .rw 0 .any]⟩,
  ⟨.TXN_ERR, 0x07040018, 4, 0x40, 1, 0x0, false, [
    fd 31 24 .ro 0 .any,
    fd 23 23 .ro 0 .any,
    fd 11 0 .ro 0 .any]⟩]

/-- The registers of the EVT block. -/
def mapEvt : List RegSpec := [
  ⟨.EVT_CTRL, 0x07050000, 1, 0x0, 1, 0x0, false, [
    kf 15 12 .rw 3 .any,
    kf 8 8 .rw 0 .any,
    kf 2 2 .rw 1 .any,
    fd 0 0 .rw 0 .any]⟩,
  ⟨.EVT_STAT, 0x07050004, 1, 0x0, 1, 0x0, false, [
    fd 3 3 .w1c 0 .any,
    fd 2 2 .w1c 0 .any,
    fd 1 1 .w1c 0 .any,
    fd 0 0 .w1c 0 .any]⟩,
  ⟨.EVT_NOW, 0x07050008, 1, 0x0, 1, 0x0, true, [
    fd 63 32 .ro 0 .any,
    fd 31 8 .rl 0 .any,
    fd 7 0 .rl 0 .any]⟩,
  ⟨.EVT_HEAP, 0x07050010, 1, 0x0, 1, 0x0, false, [
    fd 30 16 .rc 0 .any,
    fd 14 0 .ro 0 .any]⟩,
  ⟨.EVT_HEAPQ, 0x07050014, 1, 0x0, 1, 0x0, false, [
    kf 30 16 .rw 0x1e00 .any,
    kf 14 0 .rw 0x1e00 .any]⟩,
  ⟨.EVT_CNT, 0x07050040, 9, 0x4, 1, 0x0, false, [
    fd 31 0 .rc 0 .any]⟩,
  ⟨.EVT_HMAP_CTRL, 0x07050100, 2, 0x40, 1, 0x0, false, [
    kf 15 8 .rw 0xa (.range 1 255),
    kf 2 1 .rw 0 (.le 2),
    fd 0 0 .wo 0 .any]⟩,
  ⟨.EVT_HMAP_STAT, 0x07050104, 2, 0x40, 1, 0x0, false, [
    fd 2 2 .ro 0 .any,
    fd 1 1 .w1c 0 .any,
    fd 0 0 .w1c 0 .any]⟩,
  ⟨.EVT_HMAP_H0, 0x07050108, 2, 0x40, 1, 0x0, true, [
    fd 63 0 .rw 0 .any]⟩,
  ⟨.EVT_HMAP_E0, 0x07050110, 2, 0x40, 1, 0x0, true, [
    fd 63 0 .rw 0 .any]⟩,
  ⟨.EVT_HMAP_K, 0x07050118, 2, 0x40, 1, 0x0, true, [
    fd 63 0 .rw 0 .any]⟩,
  ⟨.EVT_SRC, 0x07050200, 12, 0x4, 1, 0x0, false, [
    kf 26 24 .rw 0 .any,
    kf 19 16 .rw 0 .any,
    kf 15 0 .rw 0 .any]⟩,
  ⟨.EVT_SRC_MODE, 0x07050240, 12, 0x4, 1, 0x0, false, [
    kf 7 7 .rw 0 .any,
    kf 2 1 .rw 0 (.le 2),
    kf 0 0 .rw 1 .any]⟩,
  ⟨.EVT_PARTMAP, 0x07050400, 256, 0x4, 1, 0x0, false, [
    kf 31 30 .rw 0 .any,
    kf 16 16 .rw 0 .any,
    kf 9 0 .rw 0 .any]⟩]

/-- The registers of the VAL block. -/
def mapVal : List RegSpec := [
  ⟨.VAL_CTRL, 0x07060000, 1, 0x0, 1, 0x0, false, [
    kf 1 1 .rw 1 .any,
    fd 0 0 .rw 0 .any]⟩,
  ⟨.VAL_STAT, 0x07060004, 1, 0x0, 1, 0x0, false, [
    fd 2 2 .w1c 0 .any,
    fd 1 1 .w1c 0 .any,
    fd 0 0 .w1c 0 .any]⟩,
  ⟨.VAL_OCC, 0x07060008, 1, 0x0, 1, 0x0, false, [
    fd 29 16 .ro 0 .any,
    fd 8 0 .ro 0 .any]⟩,
  ⟨.VAL_CNT, 0x07060020, 8, 0x4, 1, 0x0, false, [
    fd 31 0 .rc 0 .any]⟩,
  ⟨.VAL_PART_OWNER, 0x07061000, 1024, 0x4, 1, 0x0, false, [
    kf 31 30 .rw 0 .any]⟩,
  ⟨.VAL_PART_QUOTA, 0x07062000, 1024, 0x4, 1, 0x0, false, [
    kf 29 16 .rw 0x2000 (.le 8192),
    kf 13 0 .rw 0 (.le 8192)]⟩,
  ⟨.VAL_PART_CFG, 0x07063000, 1024, 0x4, 1, 0x0, false, [
    kf 31 28 .rw 0 .any,
    kf 27 25 .rw 0 (.le 5),
    kf 24 23 .rw 0 (.le 2),
    kf 22 19 .rw 0 .any,
    kf 18 18 .rw 0 .any,
    kf 17 17 .rw 0 .any,
    kf 16 10 .rw 0x20 (.range 1 64),
    kf 3 0 .rw 0 .any]⟩,
  ⟨.VAL_PART_PROG, 0x07064000, 1024, 0x4, 1, 0x0, false, [
    kf 31 31 .rw 0 .any,
    kf 15 0 .rw 0 .any]⟩,
  ⟨.VAL_PART_LIVE, 0x07065000, 1024, 0x4, 1, 0x0, false, [
    fd 29 16 .rc 0 .any,
    fd 13 0 .ro 0 .any]⟩,
  ⟨.VAL_TAIL, 0x07066000, 256, 0x4, 1, 0x0, false, [
    fd 31 29 .ro 0 .any,
    fd 25 16 .ro 0 .any,
    fd 12 0 .ro 0 .any]⟩,
  ⟨.VAL_SLOT, 0x07068000, 8192, 0x4, 1, 0x0, false, [
    fd 31 29 .ro 0 .any,
    fd 28 28 .ro 0 .any,
    fd 25 16 .ro 0 .any,
    fd 15 0 .ro 0 .any]⟩]

/-- The registers of the PUP block. -/
def mapPup : List RegSpec := [
  ⟨.PUP_CTRL, 0x07070000, 1, 0x0, 1, 0x0, false, [
    kf 28 24 .rw 0x18 (.range 4 30),
    kf 19 16 .rw 2 .any,
    kf 1 1 .rw 1 .any,
    fd 0 0 .rw 0 .any]⟩,
  ⟨.PUP_STAT, 0x07070004, 1, 0x0, 1, 0x0, false, [
    fd 4 4 .ro 0 .any,
    fd 3 3 .w1c 0 .any,
    fd 2 2 .w1c 0 .any,
    fd 1 1 .w1c 0 .any,
    fd 0 0 .w1c 0 .any]⟩,
  ⟨.PUP_ADMIT, 0x07070008, 1, 0x0, 1, 0x0, true, [
    fd 63 32 .ro 0 .any,
    fd 31 0 .rl 0 .any]⟩,
  ⟨.PUP_ADMIT_MEM, 0x07070010, 1, 0x0, 1, 0x0, true, [
    fd 63 32 .ro 0 .any,
    fd 31 0 .rl 0 .any]⟩,
  ⟨.PUP_PLAN, 0x07070018, 1, 0x0, 1, 0x0, false, [
    fd 31 16 .ro 0 .any,
    fd 6 0 .ro 0 .any]⟩,
  ⟨.PUP_INTAKE, 0x0707001c, 1, 0x0, 1, 0x0, false, [
    fd 28 16 .rc 0 .any,
    fd 12 0 .ro 0 .any]⟩,
  ⟨.PUP_CNT, 0x07070020, 4, 0x4, 1, 0x0, false, [
    fd 31 0 .rc 0 .any]⟩,
  ⟨.PUP_QSEL, 0x07070040, 1, 0x0, 1, 0x0, false, [
    fd 13 8 .rw 0 .any,
    fd 7 0 .rw 0 .any]⟩,
  ⟨.PUP_QVIEW, 0x07070048, 1, 0x0, 1, 0x0, true, [
    fd 63 32 .ro 0 .any,
    fd 31 0 .rl 0 .any]⟩,
  ⟨.PUP_QDEPTH, 0x07070400, 64, 0x20, 1, 0x0, false, [
    fd 30 28 .ro 0 .any,
    fd 24 16 .rc 0 .any,
    fd 8 0 .ro 0 .any]⟩,
  ⟨.PUP_WAIT, 0x07070404, 64, 0x20, 1, 0x0, false, [
    fd 31 16 .rc 0 .any,
    fd 15 0 .ro 0 .any]⟩,
  ⟨.PUP_LOAD, 0x07070408, 64, 0x20, 1, 0x0, false, [
    fd 31 16 .rc 0 .any,
    fd 15 0 .ro 0 .any]⟩,
  ⟨.PUP_PLANLOAD, 0x0707040c, 64, 0x20, 1, 0x0, false, [
    fd 31 16 .ro 0 .any,
    fd 10 0 .ro 0 .any]⟩,
  ⟨.PUP_CCNT, 0x07070410, 64, 0x20, 4, 0x4, false, [
    fd 31 0 .rc 0 .any]⟩,
  ⟨.PUP_PDIR_LOC, 0x07071000, 1024, 0x10, 1, 0x0, false, [
    fd 31 31 .ro 0 .any,
    fd 29 17 .ro 0 .any,
    fd 16 0 .ro 0 .any]⟩,
  ⟨.PUP_PDIR_HDR, 0x07071004, 1024, 0x10, 1, 0x0, false, [
    fd 31 16 .ro 0 .any,
    fd 15 14 .ro 0 .any,
    fd 10 0 .ro 0 .any]⟩,
  ⟨.PUP_PDIR_TRAP, 0x07071008, 1024, 0x10, 1, 0x0, false, [
    fd 11 0 .ro 0 .any]⟩,
  ⟨.PUP_TASK_CFG, 0x07075000, 256, 0x10, 1, 0x0, false, [
    fd 31 31 .rw 0 .any,
    kf 30 30 .rw 0 .any,
    kf 29 28 .rw 1 (.oneOf [1, 3]),
    kf 27 22 .rw 0 .any,
    kf 21 19 .rw 0 (.le 4),
    kf 17 8 .rw 0 .any,
    kf 7 6 .rw 0 .any,
    fd 1 1 .w1s 0 .any,
    fd 0 0 .ro 0 .any]⟩,
  ⟨.PUP_TASK_MEM, 0x07075004, 256, 0x10, 1, 0x0, false, [
    kf 26 16 .rw 0 .any,
    kf 10 0 .rw 0 .any]⟩,
  ⟨.PUP_TASK_IN, 0x07075008, 256, 0x10, 1, 0x0, false, [
    kf 31 24 .rw 0 .any,
    kf 23 16 .rw 0 .any,
    kf 15 8 .rw 0 .any,
    kf 7 0 .rw 0 .any]⟩,
  ⟨.PUP_VPLACE, 0x07076000, 8448, 0x4, 1, 0x0, false, [
    fd 31 31 .ro 0 .any,
    fd 30 25 .ro 0 .any,
    fd 24 17 .ro 0 .any,
    fd 10 0 .ro 0 .any]⟩]

/-- The registers of the MOD block. -/
def mapMod : List RegSpec := [
  ⟨.MOD_CTRL, 0x07080000, 1, 0x0, 1, 0x0, false, [
    fd 0 0 .rw 0 .any]⟩,
  ⟨.MOD_STAT, 0x07080004, 1, 0x0, 1, 0x0, false, [
    fd 3 3 .w1c 0 .any,
    fd 2 2 .w1c 0 .any,
    fd 1 1 .w1c 0 .any]⟩,
  ⟨.MOD_SEED, 0x07080008, 1, 0x0, 1, 0x0, false, [
    kf 31 0 .rw 0x6c3a91d5 .any]⟩,
  ⟨.MOD_CNT, 0x07080020, 3, 0x4, 1, 0x0, false, [
    fd 31 0 .rc 0 .any]⟩,
  ⟨.MOD_TEVAL, 0x07080040, 8, 0x4, 1, 0x0, false, [
    fd 31 16 .rc 0 .any,
    fd 15 0 .ro 0 .any]⟩,
  ⟨.MOD_PART_PATCH, 0x07081000, 1024, 0x4, 1, 0x0, false, [
    kf 31 31 .rw 0 .any,
    kf 15 0 .rw 0 .any]⟩,
  ⟨.MOD_PART_NSEL, 0x07082000, 1024, 0x8, 2, 0x4, false, [
    kf 31 31 .rw 0 .any,
    kf 24 24 .rw 0 .any,
    kf 23 16 .rw 0 .any,
    kf 15 15 .rw 0 .any,
    kf 8 8 .rw 0 .any,
    kf 7 0 .rw 0 .any]⟩,
  ⟨.MOD_PART_DFMT, 0x07084000, 1024, 0x10, 4, 0x4, false, [
    kf 31 28 .rw 0 (.le 3),
    kf 27 24 .rw 0 (.le 4),
    kf 23 20 .rw 0 (.le 3),
    kf 19 16 .rw 0 (.le 4),
    kf 15 12 .rw 0 (.le 3),
    kf 11 8 .rw 0 (.le 4),
    kf 7 4 .rw 0 (.le 3),
    kf 3 0 .rw 0 (.le 4)]⟩,
  ⟨.MOD_PART_CSEL, 0x07088000, 1024, 0x10, 4, 0x4, false, [
    kf 31 30 .rw 3 .any,
    kf 29 16 .rw 0 .any,
    kf 15 14 .rw 3 .any,
    kf 13 0 .rw 0 .any]⟩]

/-- The registers of the VE block. -/
def mapVe : List RegSpec := [
  ⟨.VE_STAT, 0x07090000, 64, 0x100, 1, 0x0, false, [
    fd 31 29 .ro 4 .any,
    fd 28 26 .ro 0 .any,
    fd 25 25 .ro 0 .any,
    fd 24 22 .ro 0 .any,
    fd 15 0 .ro 0 .any]⟩,
  ⟨.VE_BUNDLES, 0x07090008, 64, 0x100, 1, 0x0, true, [
    fd 63 32 .ro 0 .any,
    fd 31 0 .rl 0 .any]⟩,
  ⟨.VE_CTRL, 0x07090020, 64, 0x100, 1, 0x0, false, [
    fd 2 2 .ro 0 .any,
    fd 1 1 .wo 0 .any,
    fd 0 0 .rw 0 .any]⟩,
  ⟨.VE_FAULT, 0x07090024, 64, 0x100, 1, 0x0, false, [
    fd 31 24 .ro 0 .any,
    fd 23 23 .ro 0 .any,
    fd 22 22 .ro 0 .any,
    fd 21 21 .ro 0 .any,
    fd 20 20 .ro 0 .any,
    fd 15 0 .ro 0 .any]⟩,
  ⟨.VE_FAULTPC, 0x07090028, 64, 0x100, 1, 0x0, false, [
    fd 27 16 .ro 0 .any,
    fd 11 0 .ro 0 .any]⟩,
  ⟨.VE_FAULTADDR, 0x0709002c, 64, 0x100, 1, 0x0, false, [
    fd 31 0 .ro 0 .any]⟩,
  ⟨.VE_CNT, 0x07090030, 64, 0x100, 4, 0x4, false, [
    fd 31 0 .rc 0 .any]⟩,
  ⟨.VE_DBG_SEL, 0x07090040, 64, 0x100, 1, 0x0, false, [
    fd 11 8 .rw 0 .any,
    fd 7 0 .rw 0 .any]⟩,
  ⟨.VE_DBG_DATA, 0x07090048, 64, 0x100, 1, 0x0, true, [
    fd 63 32 .ro 0 .any,
    fd 31 0 .rl 0 .any]⟩]

/-- The registers of the WS block. -/
def mapWs : List RegSpec := [
  ⟨.WS_STAT, 0x070a0000, 1, 0x0, 1, 0x0, false, [
    fd 16 16 .ro 1 .any,
    fd 15 0 .ro 0 .any]⟩,
  ⟨.WS_OWN, 0x070a0100, 16, 0x4, 1, 0x0, false, [
    fd 31 28 .rw 0 (.oneOf [0, 1, 2, 3, 4, 8, 9, 10, 11, 12, 13, 14, 15]),
    fd 27 24 .ro 0 .any,
    fd 23 20 .rw 0 .any,
    fd 19 19 .rw 0 .any,
    fd 18 18 .ro 0 .any,
    fd 17 17 .ro 0 .any,
    fd 16 16 .ro 0 .any]⟩,
  ⟨.WS_CNT_ACC, 0x070a0400, 16, 0x10, 1, 0x0, false, [
    fd 31 0 .rc 0 .any]⟩,
  ⟨.WS_CNT_COLL, 0x070a0404, 16, 0x10, 1, 0x0, false, [
    fd 31 0 .rc 0 .any]⟩,
  ⟨.WS_WAIT, 0x070a0408, 16, 0x10, 1, 0x0, false, [
    fd 31 16 .rc 0 .any]⟩,
  ⟨.WS_CNT_REFUSED, 0x070a040c, 16, 0x10, 1, 0x0, false, [
    fd 31 0 .rc 0 .any]⟩]

/-- The registers of the COL block. -/
def mapCol : List RegSpec := [
  ⟨.COL_CTRL, 0x070b0000, 1, 0x0, 1, 0x0, false, [
    kf 10 8 .rw 1 (.range 1 7),
    kf 3 0 .rw 2 (.range 2 4)]⟩,
  ⟨.COL_STAT, 0x070b0004, 1, 0x0, 1, 0x0, false, [
    fd 3 3 .w1c 0 .any,
    fd 2 2 .w1c 0 .any,
    fd 1 1 .w1c 0 .any,
    fd 0 0 .w1c 0 .any]⟩,
  ⟨.COL_DRAIN, 0x070b0008, 1, 0x0, 1, 0x0, false, [
    fd 31 16 .rc 0 .any,
    fd 15 0 .ro 0 .any]⟩,
  ⟨.COL_CNT, 0x070b0020, 4, 0x4, 1, 0x0, false, [
    fd 31 0 .rc 0 .any]⟩,
  ⟨.COL_BUS, 0x070b0400, 256, 0x4, 1, 0x0, false, [
    kf 31 30 .rw 0 .any,
    kf 2 0 .rw 0 .any]⟩,
  ⟨.COL_IN, 0x070b0800, 66, 0x4, 1, 0x0, false, [
    kf 31 31 .rw 0 .any,
    kf 7 0 .rw 0 .any]⟩]

/-- The registers of the OUT block. -/
def mapOut : List RegSpec := [
  ⟨.OUT_TDM_CFG, 0x070c0000, 4, 0x4, 1, 0x0, false, [
    kf 31 31 .rw 0 .any,
    kf 30 30 .rw 0 .any,
    kf 29 28 .rw 0 (.le 2),
    kf 27 26 .rw 0 .any,
    kf 25 24 .rw 2 (.le 2),
    kf 23 22 .rw 1 (.le 2),
    kf 21 21 .rw 1 .any]⟩,
  ⟨.OUT_SPDIF_TX, 0x070c0020, 1, 0x0, 1, 0x0, false, [
    kf 31 31 .rw 0 .any,
    kf 23 16 .rw 0 .any,
    kf 15 8 .rw 0 .any,
    kf 7 2 .rw 0 .any]⟩,
  ⟨.OUT_SPDIF_RX, 0x070c0024, 1, 0x0, 1, 0x0, false, [
    kf 31 31 .rw 0 .any,
    kf 30 30 .rw 0 .any,
    fd 7 4 .ro 0 .any,
    fd 3 3 .ro 0 .any,
    fd 2 2 .ro 0 .any,
    fd 0 0 .ro 0 .any]⟩,
  ⟨.OUT_SPDIF_RXCS, 0x070c0028, 1, 0x0, 1, 0x0, false, [
    fd 31 0 .ro 0 .any]⟩,
  ⟨.OUT_CNT_RXZERO, 0x070c0030, 1, 0x0, 1, 0x0, false, [
    fd 31 0 .rc 0 .any]⟩,
  ⟨.OUT_MAP, 0x070c0100, 66, 0x4, 1, 0x0, false, [
    kf 31 31 .rw 0 .any,
    kf 7 0 .rw 0 .any]⟩,
  ⟨.OUT_MAP_DAC, 0x070c0220, 8, 0x4, 1, 0x0, false, [
    kf 31 31 .rw 0 .any,
    kf 7 0 .rw 0 .any]⟩]

/-- The registers of the DAC block. -/
def mapDac : List RegSpec := [
  ⟨.DAC_CTRL, 0x070d0000, 1, 0x0, 1, 0x0, false, [
    fd 0 0 .rw 0 .any]⟩,
  ⟨.DAC_STAT, 0x070d0004, 1, 0x0, 1, 0x0, false, [
    fd 3 3 .w1c 0 .any,
    fd 2 2 .w1c 0 .any,
    fd 1 1 .ro 0 .any,
    fd 0 0 .ro 1 .any]⟩,
  ⟨.DAC_STROBE, 0x070d0008, 1, 0x0, 1, 0x0, false, [
    fd 1 1 .wo 0 .any,
    fd 0 0 .wo 0 .any]⟩,
  ⟨.DAC_GCFG, 0x070d0010, 2, 0x4, 1, 0x0, false, [
    kf 31 30 .rw 0 .any,
    kf 5 4 .rw 0 (.le 2),
    kf 1 0 .rw 0 .any]⟩,
  ⟨.DAC_CNT, 0x070d0020, 4, 0x4, 1, 0x0, false, [
    fd 31 0 .rc 0 .any]⟩,
  ⟨.DAC_CH_CFG, 0x070d0100, 8, 0x20, 1, 0x0, false, [
    kf 31 31 .rw 0 .any,
    kf 30 30 .rw 0 .any,
    kf 29 29 .rw 0 .any,
    kf 28 28 .rw 0 .any,
    kf 27 26 .rw 0 (.le 2),
    kf 25 22 .rw 3 .any,
    kf 15 8 .rw 0xaf .any,
    kf 7 0 .rw 0x32 .any]⟩,
  ⟨.DAC_CH_CODE, 0x070d0104, 8, 0x20, 1, 0x0, false, [
    kf 31 16 .rw 0 .any,
    kf 15 0 .rw 0 .any]⟩,
  ⟨.DAC_CH_PUF, 0x070d0108, 8, 0x20, 1, 0x0, false, [
    kf 31 16 .rw 0 .any,
    kf 15 0 .rw 0 .any]⟩,
  ⟨.DAC_CH_STAT, 0x070d010c, 8, 0x20, 1, 0x0, false, [
    fd 31 29 .ro 0 .any,
    fd 28 28 .ro 0 .any,
    fd 5 5 .ro 0 .any,
    fd 4 4 .ro 0 .any,
    fd 3 3 .w1c 0 .any,
    fd 2 2 .w1c 0 .any,
    fd 1 1 .w1c 0 .any]⟩,
  ⟨.DAC_CH_CAL, 0x070d0110, 8, 0x20, 1, 0x0, false, [
    fd 31 16 .ro 0 .any,
    fd 15 0 .ro 0 .any]⟩]

/-- The registers of the MCK block. -/
def mapMck : List RegSpec := [
  ⟨.MCK_CTRL, 0x070e0000, 1, 0x0, 1, 0x0, false, [
    kf 31 30 .rw 0 .any,
    kf 9 8 .rw 1 (.le 2),
    kf 5 5 .rw 0 .any,
    kf 4 4 .rw 1 .any,
    kf 3 2 .rw 1 .any,
    fd 0 0 .rw 0 .any]⟩,
  ⟨.MCK_GLIDE, 0x070e0004, 1, 0x0, 1, 0x0, false, [
    kf 13 0 .rw 0x150 (.range 1 8388)]⟩,
  ⟨.MCK_STAT, 0x070e0008, 1, 0x0, 1, 0x0, false, [
    fd 31 29 .ro 0 .any,
    fd 28 26 .ro 7 .any,
    fd 25 23 .ro 7 .any,
    fd 7 7 .w1c 0 .any,
    fd 6 6 .w1c 0 .any,
    fd 5 5 .w1c 0 .any,
    fd 4 0 .ro 0 .any]⟩,
  ⟨.MCK_FREQ, 0x070e000c, 1, 0x0, 1, 0x0, false, [
    fd 31 0 .ro 0 .any]⟩,
  ⟨.MCK_PHASE, 0x070e0010, 1, 0x0, 1, 0x0, false, [
    fd 31 0 .ro 0 .any]⟩,
  ⟨.MCK_HOLD, 0x070e0014, 1, 0x0, 1, 0x0, false, [
    fd 31 0 .ro 0 .any]⟩,
  ⟨.MCK_REF, 0x070e0020, 5, 0x4, 1, 0x0, false, [
    kf 31 31 .rw 0 .any,
    kf 30 28 .rw 0 .any]⟩,
  ⟨.MCK_YREF, 0x070e0040, 5, 0x4, 1, 0x0, false, [
    fd 31 0 .ro 0 .any]⟩,
  ⟨.MCK_CNT, 0x070e0060, 4, 0x4, 1, 0x0, false, [
    fd 31 0 .rc 0 .any]⟩]

/-- The registers of the UART block. -/
def mapUart : List RegSpec := [
  ⟨.UART_CFG, 0x070f0000, 4, 0x400, 1, 0x0, false, [
    kf 31 31 .rw 1 .any,
    kf 30 29 .rw 0 (.le 2),
    kf 28 26 .rw 0 (.le 4),
    kf 23 20 .rw 8 (.range 5 9),
    kf 19 18 .rw 0 (.le 2),
    kf 17 16 .rw 0 (.le 2),
    kf 15 15 .rw 0 .any,
    kf 13 11 .rw 0 .any,
    kf 10 10 .rw 0 .any]⟩,
  ⟨.UART_DIV, 0x070f0004, 4, 0x400, 1, 0x0, false, [
    kf 19 4 .rw 0 (.range 4 65535),
    kf 3 0 .rw 0 .any]⟩,
  ⟨.UART_CTRL, 0x070f0008, 4, 0x400, 1, 0x0, false, [
    fd 2 2 .wo 0 .any,
    fd 1 1 .wo 0 .any,
    fd 0 0 .wo 0 .any]⟩,
  ⟨.UART_STAT, 0x070f000c, 4, 0x400, 1, 0x0, false, [
    fd 31 31 .ro 0 .any,
    fd 30 26 .ro 0 .any,
    fd 25 21 .ro 0 .any,
    fd 20 20 .ro 0 .any,
    fd 6 6 .ro 0 .any,
    fd 5 5 .w1c 0 .any,
    fd 4 4 .w1c 0 .any,
    fd 3 3 .w1c 0 .any,
    fd 2 2 .w1c 0 .any,
    fd 1 1 .w1c 0 .any,
    fd 0 0 .w1c 0 .any]⟩,
  ⟨.UART_IEN, 0x070f0010, 4, 0x400, 1, 0x0, false, [
    fd 4 0 .rw 0 .any]⟩,
  ⟨.UART_RXD, 0x070f0014, 4, 0x400, 1, 0x0, false, [
    fd 31 31 .rc 0 .any,
    fd 22 22 .rc 0 .any,
    fd 21 21 .rc 0 .any,
    fd 20 20 .rc 0 .any,
    fd 19 19 .rc 0 .any,
    fd 18 18 .rc 0 .any,
    fd 17 17 .rc 0 .any,
    fd 16 16 .rc 0 .any,
    fd 8 0 .rc 0 .any]⟩,
  ⟨.UART_TXD, 0x070f0018, 4, 0x400, 1, 0x0, false, [
    fd 8 0 .wo 0 .any]⟩,
  ⟨.UART_FHDR, 0x070f001c, 4, 0x400, 1, 0x0, false, [
    fd 31 31 .wo 0 .any,
    fd 5 0 .wo 0 .any]⟩,
  ⟨.UART_FTXD, 0x070f0020, 4, 0x400, 2, 0x4, false, [
    fd 31 0 .rw 0 .any]⟩,
  ⟨.UART_CNT, 0x070f0040, 4, 0x400, 4, 0x4, false, [
    fd 31 0 .rc 0 .any]⟩,
  ⟨.UART_FID, 0x070f0100, 4, 0x400, 64, 0x4, false, [
    kf 31 30 .rw 0 (.le 2),
    kf 29 29 .rw 0 .any,
    kf 2 0 .rw 0 .any]⟩]

/-- The registers of the TMR block. -/
def mapTmr : List RegSpec := [
  ⟨.TMR_CFG, 0x07100000, 16, 0x10, 1, 0x0, false, [
    fd 31 29 .rw 0 (.le 4),
    fd 28 28 .rw 0 .any]⟩,
  ⟨.TMR_COUNT, 0x07100004, 16, 0x10, 1, 0x0, false, [
    fd 31 0 .rw 0 .any]⟩,
  ⟨.TMR_STAT, 0x07100008, 16, 0x10, 1, 0x0, false, [
    fd 1 1 .ro 0 .any,
    fd 0 0 .w1c 0 .any]⟩,
  ⟨.TMR_EXPSUM, 0x07100100, 1, 0x0, 1, 0x0, false, [
    fd 15 0 .ro 0 .any]⟩,
  ⟨.TMR_REFNOW, 0x07100108, 1, 0x0, 1, 0x0, true, [
    fd 63 32 .ro 0 .any,
    fd 31 0 .rl 0 .any]⟩]

/-- The registers of the CHK block. -/
def mapChk : List RegSpec := [
  ⟨.CHK_CFG, 0x07110000, 4, 0x40, 1, 0x0, false, [
    fd 31 29 .rw 0 (.le 4),
    fd 21 16 .rw 0x20 (.range 3 32),
    fd 1 1 .rw 1 .any,
    fd 0 0 .rw 1 .any]⟩,
  ⟨.CHK_POLY, 0x07110004, 4, 0x40, 1, 0x0, false, [
    fd 31 0 .rw 0x1edc6f41 .any]⟩,
  ⟨.CHK_INIT, 0x07110008, 4, 0x40, 1, 0x0, false, [
    fd 31 0 .rw 0xffffffff .any]⟩,
  ⟨.CHK_XOROUT, 0x0711000c, 4, 0x40, 1, 0x0, false, [
    fd 31 0 .rw 0xffffffff .any]⟩,
  ⟨.CHK_CTRL, 0x07110010, 4, 0x40, 1, 0x0, false, [
    fd 1 1 .wo 0 .any,
    fd 0 0 .wo 0 .any]⟩,
  ⟨.CHK_DIN, 0x07110014, 4, 0x40, 4, 0x4, false, [
    fd 31 0 .wo 0 .any]⟩,
  ⟨.CHK_CRC, 0x07110024, 4, 0x40, 1, 0x0, false, [
    fd 31 0 .ro 0 .any]⟩,
  ⟨.CHK_ACFG, 0x07110028, 4, 0x40, 1, 0x0, false, [
    fd 31 31 .rw 0 .any,
    fd 20 16 .rw 0x10 (.range 1 16),
    fd 4 0 .rw 0 .any]⟩,
  ⟨.CHK_AIN, 0x0711002c, 4, 0x40, 1, 0x0, false, [
    fd 31 0 .wo 0 .any]⟩,
  ⟨.CHK_ASTAT, 0x07110030, 4, 0x40, 1, 0x0, false, [
    fd 31 30 .ro 0 .any,
    fd 29 29 .ro 0 .any,
    fd 17 17 .w1c 0 .any,
    fd 16 16 .w1c 0 .any,
    fd 15 0 .ro 0 .any]⟩,
  ⟨.CHK_CNT, 0x07110034, 4, 0x40, 2, 0x4, false, [
    fd 31 0 .rc 0 .any]⟩]

/-- The registers of the SEC block. -/
def mapSec : List RegSpec := [
  ⟨.SEC_STAT, 0x07120000, 1, 0x0, 1, 0x0, false, [
    fd 31 29 .ro 0 .any,
    fd 28 28 .ro 0 .any,
    fd 27 27 .ro 0 .any,
    fd 23 20 .ro 0 .any,
    fd 7 7 .w1c 0 .any,
    fd 6 6 .w1c 0 .any,
    fd 5 5 .w1c 0 .any,
    fd 4 4 .w1c 0 .any,
    fd 3 3 .w1c 0 .any]⟩,
  ⟨.SEC_SVN, 0x07120004, 1, 0x0, 1, 0x0, false, [
    fd 5 0 .ro 0 .any]⟩,
  ⟨.SEC_LRH, 0x07120010, 7, 0x4, 1, 0x0, false, [
    fd 31 0 .ro 0 .any]⟩,
  ⟨.SEC_MKH, 0x07120030, 7, 0x4, 1, 0x0, false, [
    fd 31 0 .ro 0 .any]⟩,
  ⟨.SEC_MKH_STG, 0x07120050, 7, 0x4, 1, 0x0, false, [
    fd 31 0 .wo 0 .any]⟩,
  ⟨.SEC_FUSE_CTRL, 0x0712006c, 1, 0x0, 1, 0x0, false, [
    fd 31 16 .wo 0 .any,
    fd 3 3 .ro 0 .any,
    fd 2 2 .wo 0 .any,
    fd 1 1 .wo 0 .any,
    fd 0 0 .wo 0 .any]⟩,
  ⟨.SEC_CNT, 0x07120070, 2, 0x4, 1, 0x0, false, [
    fd 31 0 .rc 0 .any]⟩,
  ⟨.SEC_IDPUB, 0x07120100, 24, 0x4, 1, 0x0, false, [
    fd 31 0 .ro 0 .any]⟩,
  ⟨.SEC_PMEAS, 0x07120180, 12, 0x4, 1, 0x0, false, [
    fd 31 0 .ro 0 .any]⟩,
  ⟨.SEC_SEAL_REQ, 0x07120200, 1, 0x0, 1, 0x0, false, [
    fd 31 31 .wo 0 .any,
    fd 3 0 .wo 0 .any]⟩,
  ⟨.SEC_SEAL_ST, 0x07120204, 1, 0x0, 1, 0x0, false, [
    fd 31 24 .ro 0 .any,
    fd 23 20 .ro 0 .any,
    fd 19 17 .ro 0 .any,
    fd 0 0 .ro 0 .any]⟩,
  ⟨.SEC_DBG_CHAL, 0x07120800, 4, 0x200, 12, 0x4, false, [
    fd 31 0 .ro 0 .any]⟩,
  ⟨.SEC_DBG_RESP, 0x07120840, 4, 0x200, 50, 0x4, false, [
    fd 31 0 .wo 0 .any]⟩,
  ⟨.SEC_DBG_CTRL, 0x07120910, 4, 0x200, 1, 0x0, false, [
    fd 31 24 .ro 0 .any,
    fd 2 2 .wo 0 .any,
    fd 1 1 .wo 0 .any,
    fd 0 0 .wo 0 .any]⟩,
  ⟨.SEC_ATT_BODY, 0x07121000, 4, 0x200, 54, 0x4, false, [
    fd 31 0 .rw 0 .any]⟩,
  ⟨.SEC_ATT_CTRL, 0x071210e0, 4, 0x200, 1, 0x0, false, [
    fd 0 0 .wo 0 .any]⟩,
  ⟨.SEC_ATT_STAT, 0x071210e4, 4, 0x200, 1, 0x0, false, [
    fd 31 24 .ro 0 .any,
    fd 0 0 .ro 0 .any]⟩,
  ⟨.SEC_ATT_SIG, 0x07121100, 4, 0x200, 24, 0x4, false, [
    fd 31 0 .ro 0 .any]⟩]

/-- The registers of the NVM block. -/
def mapNvm : List RegSpec := [
  ⟨.NVM_CMD, 0x07130000, 1, 0x0, 1, 0x0, false, [
    fd 31 28 .wo 0 (.range 1 3),
    fd 7 0 .wo 0 .any]⟩,
  ⟨.NVM_STAT, 0x07130004, 1, 0x0, 1, 0x0, false, [
    fd 31 24 .ro 0 .any,
    fd 23 21 .ro 0 .any,
    fd 7 7 .ro 1 .any,
    fd 6 6 .w1c 0 .any,
    fd 5 5 .w1c 0 .any,
    fd 4 4 .w1c 0 .any,
    fd 0 0 .ro 0 .any]⟩,
  ⟨.NVM_CNT, 0x07130020, 3, 0x4, 1, 0x0, false, [
    fd 31 0 .rc 0 .any]⟩,
  ⟨.NVM_SRC, 0x07130040, 4, 0x8, 1, 0x0, false, [
    fd 25 0 .rw 0 .any]⟩,
  ⟨.NVM_LEN, 0x07130044, 4, 0x8, 1, 0x0, false, [
    fd 16 0 .rw 0 .any]⟩,
  ⟨.NVM_RINFO, 0x07131000, 128, 0x8, 1, 0x0, true, [
    fd 63 63 .ro 0 .any,
    fd 62 62 .ro 0 .any,
    fd 61 60 .ro 0 .any,
    fd 47 0 .ro 0 .any]⟩]

/-- The registers of the PWR block. -/
def mapPwr : List RegSpec := [
  ⟨.PWR_REQ, 0x07140000, 1, 0x0, 1, 0x0, false, [
    fd 7 4 .ro 0 .any,
    fd 3 0 .ro 0 .any]⟩,
  ⟨.PWR_REQSET, 0x07140004, 1, 0x0, 1, 0x0, false, [
    fd 7 0 .wo 0 .any]⟩,
  ⟨.PWR_REQCLR, 0x07140008, 1, 0x0, 1, 0x0, false, [
    fd 7 0 .wo 0 .any]⟩,
  ⟨.PWR_STAT, 0x0714000c, 1, 0x0, 1, 0x0, false, [
    fd 31 29 .ro 0 .any,
    fd 28 26 .ro 0 .any,
    fd 25 23 .rc 0 .any,
    fd 22 21 .ro 1 .any,
    kf 20 19 .ro 0 .any,
    fd 18 18 .ro 1 .any,
    fd 7 4 .ro 0 .any,
    fd 0 0 .ro 0 .any]⟩,
  ⟨.PWR_OPP, 0x07140010, 1, 0x0, 1, 0x0, false, [
    fd 7 4 .ro 8 .any,
    kf 3 0 .rw 8 (.range 1 8)]⟩,
  ⟨.PWR_SAG_THR, 0x07140014, 1, 0x0, 1, 0x0, false, [
    kf 31 24 .rw 0xb4 .any,
    kf 23 16 .rw 0xaa .any,
    kf 15 8 .rw 0xa0 .any,
    kf 7 0 .rw 0x8c .any]⟩,
  ⟨.PWR_SAG_CFG, 0x07140018, 1, 0x0, 1, 0x0, false, [
    kf 31 31 .rw 1 .any,
    kf 15 8 .rw 0xa (.range 1 255),
    kf 7 4 .rw 4 .any,
    kf 3 0 .rw 3 .any]⟩,
  ⟨.PWR_CNT, 0x07140020, 4, 0x4, 1, 0x0, false, [
    fd 31 0 .rc 0 .any]⟩]

/-- The registers of the AGE block. -/
def mapAge : List RegSpec := [
  ⟨.AGE_CTRL, 0x07150000, 1, 0x0, 1, 0x0, false, [
    fd 31 31 .wo 0 .any,
    kf 23 16 .rw 0x14 (.range 5 100),
    kf 15 8 .rw 0x14 (.range 1 100),
    kf 3 0 .rw 5 .any]⟩,
  ⟨.AGE_STAT, 0x07150004, 1, 0x0, 1, 0x0, false, [
    fd 31 28 .ro 5 .any,
    fd 23 16 .ro 0 .any,
    fd 3 3 .w1c 0 .any,
    fd 2 2 .w1c 0 .any,
    fd 1 1 .ro 0 .any,
    fd 0 0 .ro 0 .any]⟩,
  ⟨.AGE_PLAN, 0x07150008, 1, 0x0, 1, 0x0, false, [
    fd 31 16 .ro 0 .any,
    fd 15 0 .ro 0 .any]⟩,
  ⟨.AGE_DRIFT, 0x0715000c, 1, 0x0, 1, 0x0, false, [
    fd 15 0 .ro 0 .any]⟩,
  ⟨.AGE_HOURS, 0x07150010, 1, 0x0, 1, 0x0, false, [
    fd 31 0 .ro 0 .any]⟩,
  ⟨.AGE_CLU, 0x07150020, 8, 0x4, 1, 0x0, false, [
    fd 31 16 .ro 0 .any,
    fd 15 8 .ro 0 .any]⟩,
  ⟨.AGE_CNT, 0x07150040, 2, 0x4, 1, 0x0, false, [
    fd 31 0 .rc 0 .any]⟩,
  ⟨.AGE_SENT, 0x07150100, 96, 0x4, 1, 0x0, false, [
    fd 31 16 .ro 0 .any,
    fd 15 0 .ro 0 .any]⟩]

/-- The registers of the STG block. -/
def mapStg : List RegSpec := [
  ⟨.STG_CTRL, 0x07160000, 2, 0x100, 1, 0x0, false, [
    fd 7 7 .rw 0 .any,
    kf 6 6 .rw 1 .any,
    fd 5 5 .rw 0 .any,
    fd 4 4 .wo 0 .any,
    fd 3 3 .wo 0 .any,
    fd 2 2 .wo 0 .any,
    fd 1 1 .wo 0 .any]⟩,
  ⟨.STG_STAT, 0x07160004, 2, 0x100, 1, 0x0, false, [
    fd 31 29 .ro 0 .any,
    fd 3 3 .ro 0 .any,
    fd 2 2 .w1c 0 .any,
    fd 1 1 .w1c 0 .any,
    fd 0 0 .w1c 0 .any]⟩,
  ⟨.STG_WAKE, 0x07160008, 2, 0x100, 1, 0x0, false, [
    fd 5 5 .rw 0 .any,
    fd 4 4 .rw 0 .any,
    fd 3 3 .rw 0 .any,
    fd 2 2 .rw 0 .any,
    fd 1 1 .rw 0 .any,
    fd 0 0 .rw 0 .any]⟩,
  ⟨.STG_DOORBELL, 0x0716000c, 2, 0x100, 1, 0x0, false, [
    fd 2 2 .w1s 0 .any,
    fd 1 1 .w1s 0 .any,
    fd 0 0 .w1s 0 .any]⟩,
  ⟨.STG_LOAD_SRC, 0x07160010, 2, 0x100, 1, 0x0, false, [
    fd 31 31 .rw 0 .any,
    fd 25 0 .rw 0 .any]⟩,
  ⟨.STG_LOAD_ST, 0x07160014, 2, 0x100, 1, 0x0, false, [
    fd 31 24 .ro 0 .any,
    fd 0 0 .ro 0 .any]⟩,
  ⟨.STG_FAULT, 0x07160018, 2, 0x100, 1, 0x0, false, [
    fd 31 24 .ro 0 .any,
    fd 23 23 .ro 0 .any,
    fd 22 22 .ro 0 .any,
    fd 21 21 .ro 0 .any,
    fd 20 20 .ro 0 .any]⟩,
  ⟨.STG_FAULTPC, 0x0716001c, 2, 0x100, 1, 0x0, false, [
    fd 27 16 .ro 0 .any,
    fd 11 0 .ro 0 .any]⟩,
  ⟨.STG_FAULTADDR, 0x07160020, 2, 0x100, 1, 0x0, false, [
    fd 31 0 .ro 0 .any]⟩,
  ⟨.STG_CNT_FAULT, 0x07160024, 2, 0x100, 1, 0x0, false, [
    fd 31 0 .rc 0 .any]⟩,
  ⟨.STG_SVC_STAT, 0x07160028, 2, 0x100, 1, 0x0, false, [
    fd 8 0 .ro 0 .any]⟩,
  ⟨.STG_SVC_POP, 0x0716002c, 2, 0x100, 1, 0x0, false, [
    fd 0 0 .wo 0 .any]⟩,
  ⟨.STG_SVC_HEAD, 0x07160030, 2, 0x100, 5, 0x4, false, [
    fd 31 0 .ro 0 .any]⟩,
  ⟨.STG_SENDBUF, 0x07160050, 2, 0x100, 6, 0x4, false, [
    fd 31 0 .rw 0 .any]⟩,
  ⟨.STG_SENDGO, 0x07160068, 2, 0x100, 1, 0x0, false, [
    fd 0 0 .wo 0 .any]⟩,
  ⟨.STG_SENDST, 0x0716006c, 2, 0x100, 1, 0x0, false, [
    fd 1 0 .ro 0 .any]⟩,
  ⟨.STG_DBG_SEL, 0x07160070, 2, 0x100, 1, 0x0, false, [
    fd 11 8 .rw 0 .any,
    fd 7 0 .rw 0 .any]⟩,
  ⟨.STG_DBG_DATA, 0x07160078, 2, 0x100, 1, 0x0, true, [
    fd 63 32 .ro 0 .any,
    fd 31 0 .rl 0 .any]⟩]

end Sys2Proof.Machine
end

