-- ==== Sys2Proof/Machine/State.lean ====
section
/-! DEFINITION. The state of the block, as plain data, and `State.reset`.
Tables with many entries (registers, memory, voice slots, contexts, cores) are sparse: a list of
(index, entry) pairs in strictly rising order, an unlisted index standing for the reset entry. -/

namespace Sys2Proof.Machine

/-- A sparse table. An unlisted index holds the table's default entry. -/
abbrev Tbl (α : Type) := List (Nat × α)

/-- Why the block stops. Raised by no command of a well-formed state: the manual answers every access,
also one to an address that holds nothing (R7). -/
inductive Fault where
  /-- A command whose operands `WellFormed` refuses (a descriptor read of more than 8 slots, an access width
  that does not exist, two accesses of one requester in one slot). No host, pin or unit can send it. Safe. -/
  | illFormed (mnemonic : String)
deriving DecidableEq, Repr

/-- Why a command has no meaning. -/
inductive Refusal where
  /-- Raised by an arm of `exec` whose command has no meaning yet. Safe. -/
  | notModelled (mnemonic : String)
deriving DecidableEq, Repr

/-- The variants of R1. -/
inductive Variant where
  | f
  | c
deriving DecidableEq, Repr

/-- Where the device stands between OFF and RUN (R609, R616, R617). -/
inductive Phase where
  /-- OFF: only the wake detector is powered. -/
  | off
  /-- Step 1 done: PSU_EN is high, PGOOD is awaited. -/
  | waitPgood
  /-- Step 2: the crystal oscillator starts. -/
  | waitCrystal
  /-- Step 3: the clear runs, SEC boots, the records are read. -/
  | waitRecords
  /-- Step 4 done: SEC has not released start-up yet. -/
  | waitSec
  /-- Step 5: self-test, measurement and boot loads. -/
  | selfTest
  /-- Step 6 done: the media clock runs, its first strobe is awaited. -/
  | waitStrobe
  /-- Step 7 done: RUN. -/
  | run
  /-- SLEEP (R613). -/
  | sleep
  /-- The commit before OFF runs (R615, R623). -/
  | commit
deriving DecidableEq, Repr

/-- Voice-slot states (R111). -/
inductive SlotState where
  | free
  | starting
  | active
  | released
  | dying
  | faulted
deriving DecidableEq, Repr

/-- One voice slot and what its occupant carries (R111, R112, R128, R275, R288). Times are engine times in ticks. -/
structure Slot where
  state     : SlotState := .free
  held      : Bool := false
  part      : Nat := 0
  handle    : BitVec 16 := 0
  pitch     : BitVec 16 := 0
  velocity  : BitVec 16 := 0
  relVel    : BitVec 16 := 0
  unison    : Nat := 0
  unisonMax : Nat := 0
  grantTime : Nat := 0
  /-- The note's onset, and the block that holds it (R676). -/
  onset     : Nat := 0
  firstBlk  : Nat := 0
  /-- The gate-off recorded or taken last, if any. -/
  gateOff   : Option Nat := none
  /-- Every gate-off recorded or taken, in order: the fabric applies each one (R112, R286). -/
  gates     : List Nat := []
  /-- The legato changes that a task still to come may report, in order (R131, R151). -/
  legatos   : List Nat := []
  /-- The level the fabric last published (R289). -/
  level     : Nat := 0
  /-- The block for which an end condition was reported (R113). -/
  endBlk    : Option Nat := none
  /-- A declick ramp in place: its first frame and its length (R137). -/
  ramp      : Option (Nat × Nat) := none
  /-- The control tick of the grant has not been evaluated yet (R264). -/
  fresh     : Bool := false
  /-- The patch image came from a sealed bank (R256). -/
  sealedPatch : Bool := false
  press     : Word := 0
  bend      : Word := 0x80000000
  nctl      : List Word := [0, 0, 0, 0]
  detached  : Bool := false
  /-- Nodes (0 to 15) and strings (16 + s) already counted as undefined since their last write (R257). -/
  undef     : List Nat := []
  /-- What a dropped block still owes the next task: first block, start, gate-off, legato (R331). -/
  owesFirst : Bool := false
  owesOnset : Bool := false
  owesGate  : Bool := false
  owesLeg   : Bool := false
deriving DecidableEq, Repr

/-- One tail slot (R111, R135, R136). -/
structure Tail where
  dying : Bool := false
  part  : Nat := 0
  voice : Nat := 0
  prog  : Nat := 0
  /-- First frame of the ramp and its length. -/
  rampStart : Nat := 0
  rampLen   : Nat := 1
  /-- The parameter frame last published for the victim: 0 or 1. -/
  frameNo   : Nat := 0
  /-- The tail's task faulted or its core left service: freed at the next block end (R333). -/
  faulted   : Bool := false
deriving DecidableEq, Repr

/-- A migration assigned and not yet finished (R325): the new core and region, and whether the copy
has been made. The block is the first one for the new core. -/
structure Migration where
  toVe   : Nat
  toBase : Nat
  blk    : Nat
  /-- The copy of step 2 has started. -/
  copying : Bool := false
deriving DecidableEq, Repr

/-- The placement of a context (R304, R317 to R319): voices 0 to 8191, tails 8192 to 8447. -/
structure Ctx where
  placed : Bool := false
  ve     : Nat := 0
  base   : Nat := 0
  size   : Nat := 0
  cost   : Nat := 0
  prog   : Nat := 0
  epoch  : BitVec 8 := 0
  /-- The epochs before it, newest first: (k, e) when e was the epoch of the blocks before k (R46). -/
  past   : List (Nat × BitVec 8) := []
  mig    : Option Migration := none
  /-- The latest block for which the context was given a task (R302). -/
  tasked : Option Nat := none
  /-- The frame (0 or 1) published last, and the block it was published for. -/
  pubFrame : Nat := 0
  pubBlk   : Option Nat := none
deriving DecidableEq, Repr

/-- A part's own state beside its registers (R105, R106, R118, R130, R287). -/
structure Part where
  hold    : Bool := false
  cutAll  : Bool := false
  relAll  : Bool := false
  /-- Held handles of a mono or legato part, newest first: handle, pitch, velocity. -/
  stack   : List (BitVec 16 × BitVec 16 × BitVec 16) := []
  press   : Word := 0
  bend    : Word := 0x80000000
  pctl    : List Word := [0, 0, 0, 0, 0, 0, 0, 0]
  undef   : List Nat := []
deriving DecidableEq, Repr

/-- What the heap and the service queues carry (R62, R67, R57). -/
inductive Item where
  /-- A native event: TYPE, PART, HANDLE, VALUE. -/
  | native (type : BitVec 6) (part : BitVec 10) (handle : BitVec 16) (value : Word)
  /-- A UMP forwarded to the service queue: message type 0x1 or 0x3, group, two words. -/
  | ump (mt : BitVec 4) (group : BitVec 4) (w0 w1 : Word)
  /-- A MIDI 1.0 byte. -/
  | midi (byte : Byte)
deriving DecidableEq, Repr

/-- One heap entry (R89): its stamp (none for "as soon as possible"), source and arrival number. -/
structure HeapEntry where
  stamp : Option Nat
  src   : Nat
  seq   : Nat
  item  : Item
deriving DecidableEq, Repr

/-- The MIDI 1.0 parser of UA0 or UA1 (R57). -/
structure MidiParser where
  /-- The status byte in force, running status included. -/
  status : Option Byte := none
  /-- The first data byte of a two-byte message. -/
  data1  : Option Byte := none
  /-- Inside a System Exclusive message or awaiting system common data: bytes left, or none for SysEx. -/
  sys    : Option (Option Nat) := none
deriving DecidableEq, Repr

/-- A host time mapping (R79 to R87) beside its registers: the anchors of the slope, and the values
that a LOAD will apply. -/
structure HostMap where
  href : Dword := 0
  eref : Dword := 0
  wH0  : Dword := 0
  wE0  : Dword := 0
  wK   : Dword := 0
  /-- A PTM dialogue is in progress (R81). -/
  dialogue : Bool := false
  /-- Frame strobes since the latest one at which a dialogue was due, while dialogues are made. -/
  count : Nat := 0
  /-- N_P in force for the next strobe. -/
  np : Nat := 0
  /-- The latest strobe is one at which a dialogue starts. -/
  due : Bool := false
deriving DecidableEq, Repr

/-- One program of the directory (R296 to R298). -/
structure Prog where
  base : Nat
  len  : Nat
  cost : Nat
  /-- 1 voice program, 2 fixed-task program. -/
  kind : Nat
  mem  : Nat
  trap : Nat
deriving DecidableEq, Repr

/-- One task instance (R301 to R305, R151). -/
structure Task where
  tag    : BitVec 16
  level  : Nat
  blk    : Nat
  prog   : Nat
  epoch  : BitVec 8 := 0
  region : Nat
  size   : Nat
  ready  : Bool := false
  /-- The collector has reported its input buses closed (R377). -/
  inputsIn : Bool := false
  /-- The instant from which the task has had all it waits for: its number (R313), and its reference cycle. -/
  stamp  : Option (Nat × Nat) := none
  /-- Length, trap entry and cost of its program, taken at dispatch (R217, R235, R329). -/
  len    : Nat := 0
  trap   : Nat := 0
  cost   : Nat := 0
  /-- The declick ramp the send unit applies (R202): first frame, length. -/
  ramp   : Option (Nat × Nat) := none
  /-- The parameter frame PFR reads (R188). -/
  frameNo : Nat := 0
  /-- The owner of its part or entry, judged again at acceptance. -/
  part   : Nat := 0
  /-- Already counted in PUP_CNT_MISS (R330). -/
  missed : Bool := false
  /-- Already counted in PUP_CNT_OVR (R329). -/
  overrun : Bool := false
deriving DecidableEq, Repr

/-- One level of the Matryoshka stack (R210). -/
structure Loop where
  start : Nat
  last  : Nat
  count : Nat
  /-- Pushed after trap entry (R241). -/
  inTrap : Bool := false
deriving DecidableEq, Repr

/-- The read of s1 that a wave fetch has still to make (R191, R362): its address, the format, the fraction, and the halves of
s0 as read. -/
structure SecondRead where
  addr : Nat
  fmt  : Nat
  frac : Nat
  re   : Int
  im   : Int
deriving DecidableEq, Repr

/-- A wave fetch under way (R191, R194): the physical register it fills and its value. -/
structure Fetch where
  /-- Physical register: 0 to 15 global, 16 + 16 w + r windowed. -/
  reg  : Nat
  val  : Word
  /-- For a complex format, the second register and value. -/
  reg2 : Option (Nat × Word) := none
  /-- The second word of an interpolating fetch, where it is another one than the first: read as the fetch arrives. -/
  second : Option SecondRead := none
deriving DecidableEq, Repr

/-- One send lane (R202). -/
structure Lane where
  bus    : Nat
  gain   : Word
  frames : List Word := []
deriving DecidableEq, Repr

/-- Where the next bundle stands (R237, R240, R249): delay slot, shadow, recorded loop end. -/
structure Position where
  /-- The bundle issues as a delay slot; its branch target when the branch was taken. -/
  delay  : Option (Option Nat) := none
  /-- The bundle issues as a shadow bundle; RCV after it. -/
  shadow : Option Bool := none
  /-- After RTE: the successor recorded in TNPC, and whether the loop-end action is due. -/
  forced : Option (Nat × Bool) := none
deriving DecidableEq, Repr

/-- The state a task can name (R144). Registers are sparse tables of words with default zero. -/
structure Arch where
  /-- G0 to G15. -/
  g     : Tbl Word := []
  /-- 8 windows of 16 physical registers: 16 w + r. -/
  win   : Tbl Word := []
  /-- Accumulator halves: 2 k + H. -/
  acc   : Tbl Acc80 := []
  /-- P, B, L, K: 8 kind + n; the trap address set P7, B7, L7, K7 of R239: 32 + kind. -/
  ptr   : Tbl Word := []
  /-- SR without TM and LD, which the fields below give. -/
  sr    : Word := 0
  tm    : Bool := false
  wp    : Nat := 0
  rrb   : Nat := 0
  pc    : Nat := 0
  loops : List Loop := []
  pos   : Position := {}
  tpc   : Word := 0
  tnpc  : Word := 0
  tsr   : Word := 0
  twp   : Word := 0
  tcause : Word := 0
  taddr : Word := 0
  /-- Spilled windows SD and spill base b (R227, R231). -/
  sd    : Nat := 0
  spillBase : Nat := 0
deriving DecidableEq, Repr

/-- An exception met by the latest bundle and not yet serviced (R227, R228, R236, R243). -/
inductive Pending where
  | none
  /-- A fault to be taken: TPC, TNPC, TCAUSE, TADDR. -/
  | fault (tpc tnpc : Nat) (tcause taddr : Word)
  | overflow
  | underflow
deriving DecidableEq, Repr

/-- A contribution (R364). -/
structure Contribution where
  tag   : BitVec 16
  epoch : BitVec 8
  blk   : Nat
  part  : Nat
  /-- Configured lanes, in ascending lane order: bus and 16 frames. -/
  lanes : List (Nat × List Word)
deriving DecidableEq, Repr

/-- A running or saved task (R249, R329). -/
structure TaskRun where
  task    : Task
  arch    : Arch := {}
  lanes   : Tbl Lane := []
  fetches : List Fetch := []
  pend    : Pending := .none
  /-- Cycles issuing and waiting in the present block (R329). -/
  occ     : Nat := 0
  /-- The contribution of a task that has met TEND, until the collector has accepted it (R365). -/
  ended   : Option Contribution := none
  /-- D of TEND (R205). -/
  doneInd : Bool := false
  /-- The contribution has been accepted or discarded by the collector. -/
  delivered : Bool := false
  /-- YIELD has offered a dispatch point (R206), or suspended a Stage Engine (R409). -/
  yielded : Bool := false
  /-- A fifth wave fetch waits for the oldest one (R207). -/
  fifth   : Bool := false
deriving DecidableEq, Repr

/-- A program resident on a core (R321). -/
structure Resident where
  prog    : Nat
  base    : Nat
  len     : Nat
  lastUse : Nat := 0
  loading : Bool := false
  /-- The load waits for room: programs that tasks still use leave too little (R169, R321). -/
  noRoom  : Bool := false
deriving DecidableEq, Repr

/-- Core states (R175). -/
inductive CoreState where
  | idle
  | run
  | trap
  | haltfault
  | off
deriving DecidableEq, Repr

/-- One Voice Engine core (R144, R175, R311). -/
structure Core where
  st       : CoreState := .off
  oos      : Bool := false
  /-- The device kernel on the core, by its tag (R303): 1 recovery, 2 self-test, 3 calibration. -/
  kernel   : Option Nat := none
  run      : Option TaskRun := none
  /-- Saved tasks, the newest first (R249, R315). -/
  saved    : List TaskRun := []
  /-- The ready list (R304, R311), oldest first. -/
  list     : List Task := []
  resident : List Resident := []
  /-- VE_BUNDLES (R176). -/
  bundles  : Dword := 0
  /-- The first block in which the core is no longer strained (R332). -/
  strain   : Nat := 0
  /-- Overhead counted against O in this block (R328), and whether a residency load was started (R317). -/
  overhead : Nat := 0
  loadStarted : Bool := false
  /-- Cycles of occupancy and overhead in this block (PUP_LOAD). -/
  busy     : Nat := 0
  /-- The recovery kernel has passed and the next block boundary is awaited (R245). -/
  backAtBlock : Bool := false
  /-- The state shown by the debug window while HALTFAULT is held (R248). -/
  heldArch : Option Arch := none
deriving DecidableEq, Repr

/-- A parameter frame computed by the fabric and not yet in the home VE's memory (R281, R282, R325). -/
structure PubFrame where
  voice : Nat
  blk   : Nat
  frameNo : Nat
  /-- Slot number and value. -/
  words : List (Nat × Word)
  /-- The voice's home for its block, whose cluster's slice evaluates it (R291). -/
  home  : Nat := 0
  /-- The control ticks whose evaluation it holds: two with an 8-frame tick (R291). -/
  ticks : Nat := 1
  /-- Its slice has evaluated it and goes on: it is held for a copy, or deferred. -/
  loose : Bool := false
  /-- Held for a migration copy (R325 step 3). -/
  heldForCopy : Bool := false
  /-- Held because an earlier task still reads the frame, and counted (R282). -/
  deferred : Bool := false
deriving DecidableEq, Repr

/-- The evaluation of one block's ticks that a slice has not finished (R677). -/
structure SliceEval where
  slice  : Nat
  blk    : Nat
  /-- The reference cycle of the strobe that opened the block. -/
  opened : Nat
  /-- The slice evaluates voices in the block, or is still finishing an earlier tick. -/
  voices : Bool
  /-- The control ticks of the block. -/
  ticks  : Nat := 1
  /-- Its overrun has been counted (R293). -/
  overran : Bool := false
deriving DecidableEq, Repr

/-- What a TDM port drives in one port frame (R385, R386). -/
structure TdmFrame where
  /-- The slot words, their MSB at bit 31. -/
  slots : List Word := []
  /-- FS in each BCLK period; empty for a responder, which takes FS as an input. -/
  fs    : List Bool := []
  /-- DO in each BCLK period. -/
  dout  : List Bool := []
deriving DecidableEq, Repr

/-- The collector (R366 to R382). -/
structure Collector where
  /-- Accumulators: block * 4096 + bus * 16 + frame. -/
  acc      : Tbl Int := []
  /-- COL_BUS words in force for a block (R378): block * 256 + bus. -/
  settings : Tbl Word := []
  /-- The latest block whose voice stage has opened. -/
  opened   : Option Nat := none
  /-- Ranks closed of a block: 0 none, r + 1 when ranks 0 to r are closed. -/
  closed   : Tbl Nat := []
  /-- Accepted contributions: context (or 16384 + fixed task) and block. -/
  accepted : List (Nat × Nat) := []
  /-- Kept lanes of a slot (R382): block of the contribution, then bus and frame-15 value. -/
  kept     : Tbl (Nat × List (Nat × Word)) := []
  /-- Cuts made for a block that is not open yet (R138, R382): voice, its part and the block. -/
  cuts     : List (Nat × Nat × Nat) := []
  /-- The read-outs of frames before this one are marked invalid (R455, R468). -/
  invalidTo : Nat := 0
  /-- Read-out frames of each destination at the latest read-out (R383), and those sent now (R389). -/
  readout  : Tbl Word := []
  sent     : Tbl Word := []
  readoutInvalid : Bool := false
  sentInvalid : Bool := false
  /-- Input terms captured for frames of blocks not yet open: frame, bus, the bus's owner at capture, Q1.31
  value (R389, R390). -/
  inputs   : List (Nat × Nat × Nat × Int) := []
  /-- What each TDM port sends in its present port frame (R385, R389). -/
  tdmOut   : Tbl TdmFrame := []
  /-- The two subframes on SPDIF_OUT, time slots 4 to 31 at bits 4 to 31 (R391). -/
  spdifOut : Word × Word := (0, 0)
  /-- The OUT_SPDIF_TX word whose channel status is sent (R392). -/
  csNow    : Word := 0
  /-- Frames sent in the present 192-frame S/PDIF block (R392). -/
  spdifPos : Nat := 0
deriving DecidableEq, Repr

/-- One converter channel (R423, R434, R442, R445). -/
structure DacCh where
  holding : Word := 0
  input   : Word := 0
  /-- The values in the filter's taps, the newest first: those the interpolator took, after trim and mute (R424). -/
  taps    : List Word := []
  /-- The filter in force (R430). -/
  filt    : Nat := 0
  /-- The current at the pins while the hold is engaged: frozen where it stood (R434). -/
  pin     : Word := 0
  hold    : Bool := false
  /-- Settle frames left, counted from the first strobe after the switch (R434). -/
  settle  : Nat := 0
  /-- The hold is one of R440: no sequence of R434 is counted for it. -/
  changeHold : Bool := false
  /-- `State.strobes` at the latest comparator reading, and for how many strobes in a row, up to it, the open-load and the window
  comparator have been asserted while supervised (R442). -/
  cmpAt   : Option Nat := none
  openRun : Nat := 0
  winRun  : Nat := 0
  /-- The condition has qualified since it became present. -/
  openDone : Bool := false
  winDone  : Bool := false
deriving DecidableEq, Repr

/-- Media-clock states (R462). -/
inductive MckState where
  | off
  | free
  | holdover
  | glide
  | locked
deriving DecidableEq, Repr

/-- One reference candidate (R457 to R460). -/
structure Candidate where
  qualified : Bool := false
  /-- When a condition of R459 failed last: time in units of 2^-32 reference cycle since the first strobe. -/
  broke   : Int := 0
  /-- Its frequency offset as last measured, in units of 2^-40, and whether what R458 averages over exists. -/
  yr      : Int := 0
  measured : Bool := false
  /-- A phase reference's frame edges of the last 64 frames, newest first: number of the frame, and the time in units of 2^-32
  reference cycle since the first strobe. -/
  edges   : List (Nat × Int) := []
  /-- A frequency reference's PTM pairs of the last second, newest first: host time in ns, and the time as above. -/
  pairs   : List (Nat × Int) := []
  /-- The latest edge since the latest strobe, in 1/256 SCK cycle from it. -/
  pos     : Option Nat := none
  /-- Its phase error p at the latest strobe, in units of 2^-40 SCK cycle (p of R458 times 2^32). -/
  phase   : Int := 0
  /-- Expected edges missed in a row, at the most, since the strobe before the latest one; and since the latest. -/
  missed  : Nat := 0
  skipped : Nat := 0
  /-- Expected edges that had not come at the latest strobe and have not since. -/
  late    : Nat := 0
  /-- An edge has come between two expected ones since the latest strobe. -/
  extra   : Bool := false
  /-- Candidate 2: its latest port frame held SLOTS × SLOTW BCLK periods. -/
  fits    : Bool := false
deriving DecidableEq, Repr

/-- The media clock (R451, R461 to R468). -/
structure Mck where
  st      : MckState := .off
  target  : Option Nat := none
  /-- y in force, and y_hold, in units of 2^-40. -/
  y       : Int := 0
  yHold   : Int := 0
  /-- The y of each interval of the present LOCKED period, the last second of them, newest first (R465). -/
  lockedY : List Int := []
  /-- LOCKED from the next strobe (R463, R468). -/
  lockNext : Bool := false
  /-- A RATE written directly while the clock runs, until the next strobe (R455). -/
  ratePend : Option (BitVec 2) := none
  cands   : Tbl Candidate := []
  /-- SCK cycles of the interval that begins now (R451, R468). -/
  interval : Nat := 1024
deriving DecidableEq, Repr

/-- Link states (HPx_LINK.LSTATE). -/
inductive LinkState where
  | down
  | l0
  | l1
  | l11
  | l12
  | recovery
  | reset
deriving DecidableEq, Repr

/-- One ring pair beside its registers (R484 to R491, R523). -/
structure Ring where
  /-- Slots fetched and not yet executed, oldest first: slot index and its 64 bytes. -/
  fetched : List (Nat × List Byte) := []
  /-- Next slot to fetch. -/
  fetchAt : Nat := 0
  /-- Expected alive value E. -/
  alive   : BitVec 16 := 0
  /-- Completions waiting to be written, oldest first: 64 bytes each. -/
  done    : List (List Byte) := []
  /-- The command in execution that has not completed (TXN_COMMIT until its check ends). -/
  busy    : Option (Nat × List Byte) := none
deriving DecidableEq, Repr

/-- What a port puts on its link (R476, R487, R494, R498): posted writes, MSI-X messages, PTM requests, error messages. -/
inductive PortOut where
  | write (addr : Nat) (data : List Byte)
  | msix (vector : Nat)
  | ptmRequest
  | errCor
  | errNonfatal
  | errFatal
deriving DecidableEq, Repr

/-- One host port (R473 to R504). -/
structure HostPort where
  link      : LinkState := .down
  /-- Released by the start-up sequence (R475). -/
  released  : Bool := false
  perstHigh : Bool := false
  /-- PEx_CLKREQ_N: high while the link is in L1.1 or L1.2 and the port asks for no reference clock (R474). -/
  clkreqHigh : Bool := false
  width     : BitVec 4 := 0
  speed     : BitVec 4 := 0
  d3hot     : Bool := false
  ptmEnable : Bool := false
  busMaster : Bool := false
  aspmL1    : Bool := false
  l1ss      : BitVec 4 := 0
  msixEnable : Bool := false
  msixMaskAll : Bool := false
  maxPayload : Nat := 128
  maxRead   : Nat := 512
  /-- Stored words of the configuration space, by offset (R477, R478): command and status, base addresses, interrupt line;
  Device Control and Status, Link Control, Device Control 2. -/
  header    : Tbl Word := []
  /-- The words of Advanced Error Reporting, all sticky, by offset (R478, R503). -/
  aer       : Tbl Word := []
  /-- Vectors held pending (R495). -/
  pendVec   : BitVec 32 := 0
  rings     : Tbl Ring := []
  /-- Everything the port has sent, oldest first. -/
  out       : List PortOut := []
deriving DecidableEq, Repr

/-- Transaction states (R531). -/
inductive TxnState where
  | idle
  | opened
  | checking
  | pending
  | applied
  | failed
deriving DecidableEq, Repr

/-- One transaction slot (R531 to R538). -/
structure Txn where
  st      : TxnState := .idle
  late    : Bool := false
  ovf     : Bool := false
  /-- Staged entries, oldest first: word address and value. -/
  entries : List (Nat × Word) := []
  /-- TXN_ERR: the failure that is recorded, until OPEN clears it (R531). -/
  errCode : Nat := 0
  errApply : Bool := false
  errIndex : Nat := 0
  /-- What the running checks will report: code, 0 when they pass, and index (R535). -/
  found   : Nat × Nat := (0, 0)
  /-- TIME given at COMMIT; none for "as soon as possible". -/
  time    : Option Nat := none
  /-- Order of the COMMIT accesses (R537). -/
  commitSeq : Nat := 0
  /-- The ring whose TXN_COMMIT awaits the end of the check. -/
  ring    : Option Nat := none
deriving DecidableEq, Repr

/-- Where a LIN frame stands (R554 to R560). -/
inductive LinStage where
  | header
  | sync
  | pid
  | publish
  | subscribe
  /-- EN was written to 0 while a byte of the frame was being sent: the byte completes and the frame is given up (R552). -/
  | dropped
deriving DecidableEq, Repr

/-- A LIN frame in progress. -/
structure LinFrame where
  stage   : LinStage
  /-- UART_FID as it stood when the header began (R565), by ID. -/
  fids    : List Word := []
  pid     : Byte := 0
  len     : Nat := 0
  enhanced : Bool := false
  /-- Bytes still to be sent, the checksum last. -/
  toSend  : List Byte := []
  /-- Response bytes sent or received. -/
  bytes   : List Byte := []
  /-- The first status condition that occurred (R560). -/
  status  : Nat := 0
  /-- Nothing more is awaited: the END entry may be stored. -/
  spent   : Bool := false
deriving DecidableEq, Repr

/-- One UART beside its registers (R541 to R563). -/
structure Uart where
  rxq   : List Word := []
  txq   : List (BitVec 9) := []
  cur   : Option (BitVec 9) := none
  /-- What UAn_TXD sends now, the levels in order with their sample ticks (R541, R554): true for high. Empty: the line idles
  high. -/
  txd   : List (Bool × Nat) := []
  abWait : Bool := false
  frame : Option LinFrame := none
deriving DecidableEq, Repr

/-- The parameters a check unit took at START and its register (R575, R576). -/
structure Chk where
  r      : Word := 0
  /-- 0 while no START has been made. -/
  width  : Nat := 0
  poly   : Word := 0
  init   : Word := 0
  xorout : Word := 0
  refin  : Bool := false
  refout : Bool := false
deriving DecidableEq, Repr

/-- The lifecycle states (R584). -/
inductive Lifecycle where
  | factory
  | opened
  | secured
  | fuseerr
deriving DecidableEq, Repr

/-- What the fuse programming under way burns (R585, R586). -/
structure FuseOp where
  /-- MKH as the write held it, its 28 bytes; empty where PROGMKH was 0. -/
  mkh    : List Byte := []
  svn    : Bool := false
  dbgoff : Bool := false
deriving DecidableEq, Repr

/-- The security engine beside its registers (R581 to R605). -/
structure Sec where
  /-- The fuse array of R583. -/
  fuses   : BitVec 512 := 0
  fuseOp  : Option FuseOp := none
  drbgRuns : Bool := false
  /-- How many times the DRBG has been drawn. -/
  draws   : Nat := 0
  /-- Outstanding challenges, by requester (R602, R603). -/
  chalOut : Tbl Bool := []
  /-- The UNLOCKs of each requester that are being judged, oldest first: the verdict on the response, as RESULT (R602). -/
  unlocking : Tbl (List Nat) := []
  quotes  : List Nat := []
  /-- The sealed delivery under way: bank and requester. -/
  sealJob : Option (Nat × Req) := none
  /-- The identity record whose private key SEC holds unwrapped (R587), none while IDVALID is 0. -/
  ident   : Option (List Byte) := none
  /-- SE image hashes (R592): 48 bytes each, empty for zero. -/
  seHash  : Tbl (List Byte) := []
  /-- The program measurement M (R592), empty for 48 zero bytes. -/
  meas    : List Byte := []
  /-- SEC has finished its boot and may release start-up (R593). -/
  booted  : Bool := false
deriving DecidableEq, Repr

/-- An operation on non-volatile memory (R631, R634). -/
structure NvmOp where
  /-- 1 WRITE, 2 ERASE, 3 COMMIT. -/
  op     : Nat
  rid    : Nat
  /-- The requester, none for the device. -/
  req    : Option Req
  /-- The result found when the operation was judged: 0 to go on. -/
  result : Nat
  /-- The payload copied. -/
  data   : List Byte := []
  owner  : Nat := 0
  /-- The slot that a WRITE or a COMMIT takes, and its SEQ, as its mark was written (R631). -/
  slot   : Nat := 0
  seq    : Nat := 0
  /-- The bank that holds the first byte of a WRITE's source, and whether it has had another owner since (R636). -/
  source : Option Nat := none
  moved  : Bool := false
  /-- The commit before OFF (R615). -/
  thenOff : Bool := false
deriving DecidableEq, Repr

/-- Non-volatile memory control beside its registers and bytes. -/
structure Nvm where
  op      : Option NvmOp := none
  /-- Entries of AGEH whose writes wait for the operation in progress, oldest first: 16 bytes each (R649). -/
  agehDue : List (List Byte) := []
deriving DecidableEq, Repr

/-- The ageing controller and margin planner (R645 to R649). -/
structure Age where
  measuring : Bool := false
  /-- The settle time after a step up of VSET runs (R647). -/
  settling  : Bool := false
  startup   : Bool := false
  /-- Steps up of VSET and falls of R_plan since the last entry of AGEH (R649). -/
  raises    : Nat := 0
  cuts      : Nat := 0
  /-- R_plan, M bundles/s. -/
  rplan     : Nat := 1200
  excluded  : List Nat := []
  /-- The readings of step 5 are in, and the plan waits for the calibration kernels (R644, R647). -/
  awaits    : Bool := false
  /-- The FCAL payload that the calibration kernels have loaded, and the clusters for which they have (R644). -/
  fcal      : List Byte := []
  loaded    : List Nat := []
  /-- The lowest FMIN of any plan since the device left OFF (R649). -/
  low       : Option Nat := none
  /-- `State.refAll` as RUN began: the hours of RUN and SLEEP are counted from it (R649). -/
  runFrom   : Nat := 0
  /-- Every set-point sent over AVSBus, oldest first (R647, R658). -/
  sent      : List Nat := []
deriving DecidableEq, Repr

/-- Stage Engine states (STG_STAT.STATE). -/
inductive StgState where
  | empty
  | loading
  | stopped
  | run
  | wait
  | trap
  | faulted
  | haltfault
deriving DecidableEq, Repr

/-- One Stage Engine beside its registers (R398 to R422). -/
structure Stage where
  st     : StgState := .empty
  oos    : Bool := false
  tr     : Option TaskRun := none
  len    : Nat := 0
  entry  : Nat := 0
  trap   : Nat := 0
  /-- The load under way: source word, rights of the requester, start reason when it starts by itself. -/
  load   : Option (Word × Req × Option Nat) := none
  /-- Banks whose owner has changed since the load began (R406). -/
  moved  : List Nat := []
  /-- The source and requester of the last successful load. -/
  lastSrc : Option (Word × Req) := none
  /-- Automatic restarts counted as consecutive, and `State.strobes` at the last one (R419). -/
  restarts : Nat := 0
  restartAt : Nat := 0
  /-- The sequence of R419 is under way: the recovery kernel, then a reload. -/
  kernel : Bool := false
  svcq   : List (Nat × Nat × Item) := []
  /-- Loads that stall the engine (R402) with their values: physical register (low word) below 256, or
  1000 + 2 × accumulator half, plus 1 for its upper word. -/
  stall  : Option (List (Nat × Dword)) := none
  /-- A submission was busy (R415). -/
  sendBusy : Bool := false
  heldArch : Option Arch := none
  /-- A strobe that opens a block has come while the engine waits (STG_WAKE.BLOCK). -/
  blockSeen : Bool := false
deriving DecidableEq, Repr

/-- What the device answered to the latest access: the value read, or the cause of a refusal (R497, R673). -/
structure Response where
  value : Dword := 0
  /-- 0 when accepted. -/
  cause : Nat := 0
  /-- The data bytes of a memory read completion, one for each lane. -/
  bytes : List Byte := []
deriving DecidableEq, Repr

/-- The answer to one access of a contested slot (R506): the value of a read, or the cause of a refusal. -/
structure SlotAnswer where
  req   : Req
  value : Dword := 0
  cause : Nat := 0
deriving DecidableEq, Repr

/-- The whole block. -/
structure State where
  /-- Commands waiting, first in, first out. -/
  pending : List Instr := []
  variant : Variant := .f
  phase   : Phase := .off
  /-- Register words, at their device addresses; an unlisted word holds its Power-on value. -/
  csr     : Tbl Word := []
  /-- Values written to write-only words that a later step reads (SEC_MKH_STG, SEC_DBG_RESP). -/
  hidden  : Tbl Word := []
  /-- The upper halves latched for each requester: 2^32 * requester + address (R16). -/
  latch   : Tbl Word := []
  /-- Every byte of device memory, at its device address; non-volatile memory at 0x0800_0000 up. -/
  mem     : Tbl Byte := []
  resp    : Response := {}
  /-- The requester ordered first in the latest contested slot (R505). -/
  arbLast : Option Req := none
  /-- Accesses that stand at the arbiter, one list for each slot to come (R505, R510). -/
  posted  : List (List RegAccess) := []
  /-- The answers to the accesses of the latest contested slot, in their order (R506). -/
  slotResp : List SlotAnswer := []
  -- time
  /-- The frame of the latest strobe, none before the first (R75). -/
  now     : Option Nat := none
  /-- Frame strobes since the device left OFF, those before a restart of the media clock among them (R419). -/
  strobes : Nat := 0
  /-- Reference cycles since the latest strobe (R77), and those from the first strobe to the latest, in units of 2^-32
  cycle (R574). -/
  refCyc  : Nat := 0
  refNow  : Nat := 0
  /-- Every reference cycle that has passed, whole cycles, and the value of it at which each wound REF timer has counted
  down (R568, R569). -/
  refAll  : Nat := 0
  refEnd  : Tbl Nat := []
  /-- A counter that names each free value drawn. -/
  draw    : Nat := 0
  -- events
  heap    : List HeapEntry := []
  heapSeq : Nat := 0
  hmap    : Tbl HostMap := []
  midi    : Tbl MidiParser := []
  /-- The control ticks whose release was paused, newest first: first frame, and the arrival numbers of the events that it may
  still release, in the order in which it would have (R89, R92, R98). -/
  paused  : List (Nat × List Nat) := []
  -- allocation
  slots   : Tbl Slot := []
  tails   : Tbl Tail := []
  parts   : Tbl Part := []
  ctxs    : Tbl Ctx := []
  /-- The admission budget in force (R40). -/
  budget  : Nat := 0
  -- scheduling
  progs   : Tbl Prog := []
  cores   : Tbl Core := []
  /-- Intake entries not yet drained (R311). -/
  intake  : Nat := 0
  readySeq : Nat := 0
  runs    : Tbl Nat := []
  /-- Fixed tasks whose enable has taken effect (R308), and those being disabled (R310). -/
  taskOn  : List Nat := []
  -- the fabric
  pubs    : List PubFrame := []
  /-- The slice evaluations under way, oldest first (R677). -/
  evals   : List SliceEval := []
  -- outputs
  col     : Collector := {}
  dac     : Tbl DacCh := []
  /-- The level at DAC_CLR_N, and the synchronised level that DAC_STAT.CLRPIN shows (R432). -/
  clrPin  : Bool := true
  clrSeen : Bool := true
  mck     : Mck := {}
  -- ports, transactions, semaphores
  ports   : Tbl HostPort := []
  txns    : Tbl Txn := []
  commitSeq : Nat := 0
  /-- Holders of the semaphores. -/
  sems    : Tbl (Option Req) := []
  -- the Wave Store: pending and draining handovers
  /-- A handover that waits for a block boundary: the WS_OWN word to apply. -/
  wsPend  : Tbl (Option Word) := []
  /-- What ends when a bank's BUSY ends: none nothing, 1 drain, 2 clear. -/
  wsBusy  : Tbl Nat := []
  /-- Word accesses of a bank beyond the units counted in WS_CNT_ACC (0 to 1,023). -/
  wsAcc   : Tbl Nat := []
  /-- Memory requests of the hosts that wait for a drain or a clear (R344, R356), oldest first; true for BAR2. -/
  stalled : List (Port × Bool × MemReq) := []
  -- serial
  uarts   : Tbl Uart := []
  chks    : Tbl Chk := []
  sec     : Sec := {}
  nvm     : Nvm := {}
  age     : Age := {}
  stgs    : Tbl Stage := []
  -- power
  psuEn   : Bool := false
  /-- The sag level whose actions are in force (R624). -/
  sagActed : Nat := 0
  /-- The level whose hold on P1 tasks is in force: it rises with `sagActed`, and falls at a block boundary (R625). -/
  sagHeld : Nat := 0
  /-- The mute of sag level 3 (R445): the frame of the ramp in force, N once all are done, N + 1 when zero is held; and N,
  taken from the rate at the ramp's start. -/
  mute    : Option (Nat × Nat) := none
  /-- The forced release of level 3 is still due (R623). -/
  sagRelease : Bool := false
  /-- The cuts of level 2 are still due (R623). -/
  sagCut  : Bool := false
deriving DecidableEq, Repr

/-- The block right after reset: OFF, every register at its Power-on value, nothing in memory, no
command waiting (R20, R76, R609). -/
def State.reset : State := {}

end Sys2Proof.Machine
end

