-- ==== Sys2Proof/Machine/Ops.lean ====
section
/-! DEFINITION. The named operations on the state: sparse tables, register words and their fields, counters,
sticky flags, interrupt causes, memory bytes and free values. Every unit reads and writes the state through these. -/

namespace Sys2Proof.Machine

/-! ### Sparse tables -/

/-- The entry at index `k`: the listed one, or the default. -/
def tget {α : Type} (d : α) : Tbl α → Nat → α
  | [], _ => d
  | (i, v) :: t, k => if i = k then v else tget d t k

/-- Lists entry `v` at index `k`, in rising order. -/
def tins {α : Type} (k : Nat) (v : α) : Tbl α → Tbl α
  | [] => [(k, v)]
  | (i, w) :: t =>
    if i < k then (i, w) :: tins k v t
    else if i = k then (k, v) :: t
    else (k, v) :: (i, w) :: t

/-- Unlists index `k`. -/
def tdel {α : Type} (k : Nat) : Tbl α → Tbl α
  | [] => []
  | (i, w) :: t => if i = k then tdel k t else (i, w) :: tdel k t

/-- Stores `v` at index `k`; storing the default unlists the index. -/
def tput {α : Type} [DecidableEq α] (d : α) (t : Tbl α) (k : Nat) (v : α) : Tbl α :=
  if v = d then tdel k t else tins k v t

/-- Unlists every index from `a` up to `a + n - 1`. -/
def tclear {α : Type} (t : Tbl α) (a n : Nat) : Tbl α :=
  t.filter fun e => ¬ (a ≤ e.1 ∧ e.1 < a + n)

/-- The canonical form: strictly rising indices, and no entry equal to the default of its index. -/
def twf {α : Type} [DecidableEq α] (d : Nat → α) : Tbl α → Bool
  | [] => true
  | [(i, v)] => decide (v ≠ d i)
  | (i, v) :: (j, w) :: t => decide (v ≠ d i) && decide (i < j) && twf d ((j, w) :: t)

/-! ### Bits and numbers -/

/-- Field [hi:lo] of a word, as a number (R10). -/
def fld (w : Word) (hi lo : Nat) : Nat := (w >>> lo).toNat % 2 ^ (hi - lo + 1)

/-- The mask of field [hi:lo]. -/
def fmask (hi lo : Nat) : Word := BitVec.ofNat 32 ((2 ^ (hi - lo + 1) - 1) * 2 ^ lo)

/-- A word with field [hi:lo] replaced. -/
def setFld (w : Word) (hi lo v : Nat) : Word :=
  (w &&& ~~~ fmask hi lo) ||| (BitVec.ofNat 32 (v * 2 ^ lo) &&& fmask hi lo)

/-- Bit n of a word. -/
def bit (w : Word) (n : Nat) : Bool := w.getLsbD n

/-- The word with only bit n set. -/
def onebit (n : Nat) : Word := BitVec.ofNat 32 (2 ^ n)

/-- 1 for true. -/
def b2n (b : Bool) : Nat := if b then 1 else 0

/-- Saturates a count at 0xFFFF_FFFF (R53). -/
def sat32 (n : Nat) : Word := BitVec.ofNat 32 (min n 0xFFFFFFFF)

/-- round of R155: drops n low bits, half up. A shift above 127 yields 0 (R263). -/
def rnd (x : Int) (n : Nat) : Int :=
  if n = 0 then x
  else if n > 127 then 0
  else (x + 2 ^ (n - 1)) / 2 ^ n

/-- divr of R263: a / b rounded half up. -/
def divr (a : Int) (b : Int) : Int := if b = 0 then 0 else (2 * a + b) / (2 * b)

/-- Limits a value to a range. -/
def clampI (x lo hi : Int) : Int := if x < lo then lo else if x > hi then hi else x

/-- Saturates to s32. -/
def satS32 (x : Int) : Int := clampI x (-2147483648) 2147483647

/-- The difference of two 64-bit values as an s64. -/
def diffS64 (a b : Int) : Int := (BitVec.ofInt 64 (a - b)).toInt

/-- A two's-complement word of an integer. -/
def wordI (x : Int) : Word := BitVec.ofInt 32 x

/-! ### The general steps of a loop -/

/-- Applies `f` to the numbers `a`, `a + 1`, … , `a + n - 1` in turn. -/
def iter {σ : Type} (f : Nat → σ → σ) : Nat → Nat → σ → σ
  | _, 0, s => s
  | a, n + 1, s => iter f (a + 1) n (f a s)

/-- The first of the numbers `a` … `a + n - 1` that meets `p`. -/
def firstFrom (p : Nat → Bool) : Nat → Nat → Option Nat
  | _, 0 => none
  | a, n + 1 => if p a then some a else firstFrom p (a + 1) n

/-- Sum over a list. -/
def sumOf {α : Type} (f : α → Nat) (l : List α) : Nat := l.foldl (fun n x => n + f x) 0

/-- Largest over a list, 0 when it is empty. -/
def maxOf {α : Type} (f : α → Nat) (l : List α) : Nat := l.foldl (fun n x => max n (f x)) 0

/-! ### Power-on values -/

/-- Register words whose Power-on value depends on the element (R1, R55, R478, R539). -/
def indexedPon (variant : Variant) (name : RegName) (i j : Nat) (w : Word) : Word :=
  match name with
  | .SYS_ID => setFld w 11 8 (match variant with | .f => 1 | .c => 2)
  | .EVT_SRC =>
    if i < 8 then 0x04000000
    else if i = 8 then 0x06001000
    else if i = 9 then 0x06011000
    else 0x05000000
  | .EVT_SRC_MODE => if i = 8 ∨ i = 9 then 5 else 1
  | .UART_CFG =>
    match i with
    | 2 => 0xA4800000
    | 3 => 0x88808000
    | _ => 0x80800000
  | .UART_DIV =>
    match i with
    | 2 => 5120
    | 3 => 853
    | _ => 3146
  | .MSIX_TABLE => if j % 4 = 3 then 1 else 0
  | _ => w

/-- What an address of the register blocks reaches (R7, R509, R653). -/
structure RegHit where
  name  : RegName
  i     : Nat
  j     : Nat
  wide  : Bool
  /-- The address is the upper word of a wide register. -/
  upper : Bool
  fields : List FieldSpec
deriving DecidableEq, Repr

/-- Where `addr` lies in the array of one row of the map, if anywhere. -/
def RegSpec.hit (r : RegSpec) (addr : Nat) : Option RegHit :=
  if addr < r.base then none else
  let off := addr - r.base
  let i := if r.n1 = 1 then 0 else off / r.s1
  let off1 := off - i * r.s1
  let j := if r.n2 = 1 then 0 else off1 / r.s2
  let off2 := off1 - j * r.s2
  let at4 := r.wide && off2 == 4
  if i < r.n1 ∧ j < r.n2 ∧ (off2 = 0 ∨ at4 = true) then
    some { name := r.name, i := i, j := j, wide := r.wide, upper := at4, fields := r.fields }
  else none

/-- The rows of the block that holds `addr`. -/
def blockMap (addr : Nat) : List RegSpec :=
  match addr / 0x10000 with
  | 0x700 => mapSys
  | 0x701 => mapHp
  | 0x702 => mapHp
  | 0x703 => mapSem
  | 0x704 => mapTxn
  | 0x705 => mapEvt
  | 0x706 => mapVal
  | 0x707 => mapPup
  | 0x708 => mapMod
  | 0x709 => mapVe
  | 0x70A => mapWs
  | 0x70B => mapCol
  | 0x70C => mapOut
  | 0x70D => mapDac
  | 0x70E => mapMck
  | 0x70F => mapUart
  | 0x710 => mapTmr
  | 0x711 => mapChk
  | 0x712 => mapSec
  | 0x713 => mapNvm
  | 0x714 => mapPwr
  | 0x715 => mapAge
  | 0x716 => mapStg
  | _ => []

/-- The register at a word address, if one is defined there (R511, R652, R653). -/
def findReg (addr : Nat) : Option RegHit :=
  (blockMap addr).findSome? fun r => r.hit addr

/-- The fields of a hit that lie in the word addressed, with bit numbers of that word. -/
def RegHit.wordFields (h : RegHit) : List FieldSpec :=
  if h.wide then
    h.fields.filterMap fun f =>
      if h.upper then
        if f.hi < 32 then none
        else some { f with hi := f.hi - 32, lo := f.lo - 32, pon := f.pon / 2 ^ (32 - min f.lo 32) }
      else if 32 ≤ f.lo then none
      else some { f with hi := min f.hi 31 }
  else h.fields

/-- The Power-on value of the word at an address (R20). -/
def powerOnWord (variant : Variant) (addr : Nat) : Word :=
  match findReg addr with
  | none => 0
  | some h =>
    indexedPon variant h.name h.i h.j
      (h.wordFields.foldl (fun w f => setFld w f.hi f.lo f.pon) 0)

/-! ### Register words -/

/-- The stored word of a register. -/
def State.reg (s : State) (a : Nat) : Word := tget (powerOnWord s.variant a) s.csr a

/-- Stores a register word. -/
def State.setReg (s : State) (a : Nat) (w : Word) : State :=
  { s with csr := tput (powerOnWord s.variant a) s.csr a w }

/-- Field [hi:lo] of a stored register. -/
def State.rf (s : State) (a hi lo : Nat) : Nat := fld (s.reg a) hi lo

/-- Bit n of a stored register. -/
def State.rb (s : State) (a n : Nat) : Bool := bit (s.reg a) n

/-- Replaces field [hi:lo] of a stored register. -/
def State.setRf (s : State) (a hi lo v : Nat) : State := s.setReg a (setFld (s.reg a) hi lo v)

/-- Sets bits of a stored register. -/
def State.orReg (s : State) (a : Nat) (m : Word) : State := s.setReg a (s.reg a ||| m)

/-- A stored wide register (R9, R11). -/
def State.reg64 (s : State) (a : Nat) : Dword := s.reg (a + 4) ++ s.reg a

/-- Stores a wide register. -/
def State.setReg64 (s : State) (a : Nat) (v : Dword) : State :=
  (s.setReg a (v.setWidth 32)).setReg (a + 4) ((v >>> 32).setWidth 32)

/-- Adds to a statistics counter, which saturates (R53). -/
def State.countBy (s : State) (a n : Nat) : State := s.setReg a (sat32 ((s.reg a).toNat + n))

/-- Counts one in a statistics counter. -/
def State.count (s : State) (a : Nat) : State := s.countBy a 1

/-- Keeps the largest value in the field [hi:lo] of a register, saturated to the field (a PEAK field). -/
def State.peak (s : State) (a hi lo v : Nat) : State :=
  let m := min v (2 ^ (hi - lo + 1) - 1)
  if s.rf a hi lo < m then s.setRf a hi lo m else s

/-- The listed words of a register array: index and word. An element that is not listed holds its Power-on value. -/
def State.listed (s : State) (base n stride : Nat) : List (Nat × Word) :=
  s.csr.filterMap fun e =>
    if base ≤ e.1 ∧ e.1 < base + n * stride ∧ (e.1 - base) % stride = 0 then some ((e.1 - base) / stride, e.2)
    else none

/-! ### Ports and interrupt causes -/

/-- The number of a port: 0 for A, 1 for B. -/
def Port.ix : Port → Nat
  | .a => 0
  | .b => 1

/-- The requester that a port carries (R8). -/
def Port.req : Port → Req
  | .a => .hpa
  | .b => .hpb

/-- The number of a requester: 0 host A, 1 host B, 2 SE0, 3 SE1 (R8, R531). -/
def Req.ix : Req → Nat
  | .hpa => 0
  | .hpb => 1
  | .se0 => 2
  | .se1 => 3

/-- The agent of a requester, as owner fields encode it: 1 HPA, 2 HPB, 3 SE (R73, R102). -/
def Req.agent : Req → Nat
  | .hpa => 1
  | .hpb => 2
  | .se0 => 3
  | .se1 => 3

/-- The requester of a number. -/
def reqOf : Nat → Req
  | 0 => .hpa
  | 1 => .hpb
  | 2 => .se0
  | _ => .se1

def State.port (s : State) (p : Nat) : HostPort := tget {} s.ports p
def State.setPort (s : State) (p : Nat) (x : HostPort) : State := { s with ports := tput {} s.ports p x }

/-- MSI-X messages may be sent: D0, Bus Master Enable and MSI-X Enable set, neither the function nor the vector
masked (R494, R495). -/
def State.msixReady (s : State) (p v : Nat) : Bool :=
  let h := s.port p
  !h.d3hot && h.busMaster && h.msixEnable && !h.msixMaskAll && !s.rb (Reg.MSIX_TABLE p (4 * v + 3)) 0

/-- The link state once traffic has brought a link in L1, L1.1 or L1.2 back to L0 (R500). -/
def LinkState.woken : LinkState → LinkState
  | .l1 => .l0
  | .l11 => .l0
  | .l12 => .l0
  | x => x

/-- The link in a state, and PEx_CLKREQ_N with it (R474; log entry 35). -/
def HostPort.setLink (h : HostPort) (l : LinkState) : HostPort :=
  { h with link := l, clkreqHigh := decide (l = .l11) || decide (l = .l12) }

/-- Traffic brings the link back to L0 (R500). -/
def HostPort.wake (h : HostPort) : HostPort := h.setLink h.link.woken

/-- A port puts something on its link, which leaves L1 for it (R500). -/
def State.send (s : State) (p : Nat) (x : PortOut) : State :=
  let h := s.port p
  s.setPort p { h.wake with out := h.out ++ [x] }

/-- Signals vector v of port p: the message is sent, or held pending (R494, R495). -/
def State.signal (s : State) (p v : Nat) : State :=
  let h := s.port p
  if s.msixReady p v then s.send p (.msix v)
  else s.setPort p { h with pendVec := h.pendVec ||| onebit v }

/-- Sends every vector held pending that may now be sent (R495). -/
def State.flushVectors (s : State) (p : Nat) : State :=
  iter (fun v s =>
    let h := s.port p
    if bit h.pendVec v && s.msixReady p v then
      (s.setPort p { h with pendVec := h.pendVec &&& ~~~ onebit v }).send p (.msix v)
    else s) 0 26 s

/-- Sets the cause of vector v of port p; the vector is signalled when the bit rises while enabled
(R493, R494). -/
def State.cause (s : State) (p v : Nat) : State :=
  if s.rb (Reg.HPx_IRQ_STAT p) v then s
  else
    let t := s.orReg (Reg.HPx_IRQ_STAT p) (onebit v)
    if t.rb (Reg.HPx_IRQ_EN p) v then t.signal p v else t

/-- Sets a cause marked "both" in R493. -/
def State.causeBoth (s : State) (v : Nat) : State := (s.cause 0 v).cause 1 v

/-- Sets a bit of SYS_DET[7:2] and the cause of vector 21 (R51, R52, R493). -/
def State.det (s : State) (n : Nat) : State := (s.orReg Reg.SYS_DET (onebit n)).causeBoth 21

/-- Sets a sticky bit of EVT_STAT and the cause of vector 8. -/
def State.evtFlag (s : State) (n : Nat) : State := (s.orReg Reg.EVT_STAT (onebit n)).causeBoth 8

/-- Sets a sticky bit of VAL_STAT and the cause of vector 9. -/
def State.valFlag (s : State) (n : Nat) : State := (s.orReg Reg.VAL_STAT (onebit n)).causeBoth 9

/-- Sets a sticky bit of MOD_STAT and the cause of vector 10. -/
def State.modFlag (s : State) (n : Nat) : State := (s.orReg Reg.MOD_STAT (onebit n)).causeBoth 10

/-- Sets a sticky bit of PUP_STAT and the cause of vector 11. -/
def State.pupFlag (s : State) (n : Nat) : State := (s.orReg Reg.PUP_STAT (onebit n)).causeBoth 11

/-- Sets a sticky bit of COL_STAT and the cause of vector 12. -/
def State.colFlag (s : State) (n : Nat) : State := (s.orReg Reg.COL_STAT (onebit n)).causeBoth 12

/-- Sets a sticky bit of MCK_STAT and the cause of vector 14. -/
def State.mckFlag (s : State) (n : Nat) : State := (s.orReg Reg.MCK_STAT (onebit n)).causeBoth 14

/-! ### Memory -/

/-- The canonical form of memory: strictly rising addresses, and no listed byte that is zero, which is what an unlisted
address reads as. -/
def Memory.wf (m : List Host.Cell) : Bool := twf (fun _ => 0) m

/-- A byte of device memory; one that nothing has written reads zero (R356, R642). -/
def State.byte (s : State) (a : Nat) : Byte := tget 0 s.mem a

/-- Stores a byte of device memory. -/
def State.setByte (s : State) (a : Nat) (b : Byte) : State := { s with mem := tput 0 s.mem a b }

/-- The 32-bit word at a byte address, least significant byte first (R11). -/
def State.word (s : State) (a : Nat) : Word :=
  s.byte (a + 3) ++ s.byte (a + 2) ++ s.byte (a + 1) ++ s.byte a

/-- Stores a 32-bit word (R11). -/
def State.setWord (s : State) (a : Nat) (w : Word) : State :=
  (((s.setByte a (w.extractLsb' 0 8)).setByte (a + 1) (w.extractLsb' 8 8)).setByte (a + 2)
    (w.extractLsb' 16 8)).setByte (a + 3) (w.extractLsb' 24 8)

/-- The 64-bit word at a byte address (R11). -/
def State.dword (s : State) (a : Nat) : Dword := s.word (a + 4) ++ s.word a

/-- Stores a 64-bit word (R11). -/
def State.setDword (s : State) (a : Nat) (w : Dword) : State :=
  (s.setWord a (w.setWidth 32)).setWord (a + 4) ((w >>> 32).setWidth 32)

/-- Bytes from `a` up. -/
def State.bytes (s : State) (a n : Nat) : List Byte := (List.range n).map fun i => s.byte (a + i)

/-- Stores bytes from `a` up. -/
def State.setBytes (s : State) (a : Nat) : List Byte → State
  | [] => s
  | b :: l => (s.setByte a b).setBytes (a + 1) l

/-- Clears `n` bytes from `a` up. -/
def State.clearBytes (s : State) (a n : Nat) : State := { s with mem := tclear s.mem a n }

/-- Copies `n` bytes from `src` to `dst`, as they stood before the copy. -/
def State.copyBytes (s : State) (src dst n : Nat) : State :=
  let kept := (s.clearBytes dst n)
  (s.mem.filter fun e => decide (src ≤ e.1) && decide (e.1 < src + n)).foldl
    (fun t e => t.setByte (dst + (e.1 - src)) e.2) kept

/-- A number from bytes, least significant first (R11). -/
def leNat : List Byte → Nat
  | [] => 0
  | b :: l => b.toNat + 256 * leNat l

/-- The `n` bytes of a number, least significant first (R11). -/
def toLE (v : Nat) : Nat → List Byte
  | 0 => []
  | n + 1 => BitVec.ofNat 8 (v % 256) :: toLE (v / 256) n

/-- VEn's local memory (R7). -/
def lmBase (n : Nat) : Nat := 0x04000000 + n * 0x20000
/-- VEn's instruction memory (R7). -/
def imBase (n : Nat) : Nat := 0x04800000 + n * 0x8000
/-- The Program Store (R7). -/
def psBase : Nat := 0x04A00000
/-- SEe's memory (R7). -/
def seBase (e : Nat) : Nat := 0x06000000 + e * 0x40000
/-- Node k of voice slot v (R253). -/
def voiceNode (v k : Nat) : Nat := 0x05000000 + 512 * v + 32 * k
/-- Node k of part p (R253). -/
def partNode (p k : Nat) : Nat := 0x05400000 + 256 * p + 32 * k
/-- String n of voice slot v (R253). -/
def stringAt (v n : Nat) : Nat := 0x05800000 + 512 * v + 8 * n
/-- The non-volatile memory (R7, R628). -/
def nvmBase : Nat := 0x08000000

/-! ### Free values -/

/-- Draws a free value of `w` bits. -/
def State.free (s : State) (w : Nat) : BitVec w × State :=
  (Config.freeValue w s.draw, { s with draw := s.draw + 1 })

/-! ### The entries of the sparse tables -/

def State.slot (s : State) (v : Nat) : Slot := tget {} s.slots v
def State.setSlot (s : State) (v : Nat) (x : Slot) : State := { s with slots := tput {} s.slots v x }
def State.tail (s : State) (t : Nat) : Tail := tget {} s.tails t
def State.setTail (s : State) (t : Nat) (x : Tail) : State := { s with tails := tput {} s.tails t x }
def State.part (s : State) (p : Nat) : Part := tget {} s.parts p
def State.setPart (s : State) (p : Nat) (x : Part) : State := { s with parts := tput {} s.parts p x }
def State.ctx (s : State) (x : Nat) : Ctx := tget {} s.ctxs x
def State.setCtx (s : State) (x : Nat) (c : Ctx) : State := { s with ctxs := tput {} s.ctxs x c }
def State.core (s : State) (n : Nat) : Core := tget {} s.cores n
def State.setCore (s : State) (n : Nat) (c : Core) : State := { s with cores := tput {} s.cores n c }
def State.stg (s : State) (e : Nat) : Stage := tget {} s.stgs e
def State.setStg (s : State) (e : Nat) (x : Stage) : State := { s with stgs := tput {} s.stgs e x }
def State.txn (s : State) (i : Nat) : Txn := tget {} s.txns i
def State.setTxn (s : State) (i : Nat) (x : Txn) : State := { s with txns := tput {} s.txns i x }
def State.uart (s : State) (u : Nat) : Uart := tget {} s.uarts u
def State.setUart (s : State) (u : Nat) (x : Uart) : State := { s with uarts := tput {} s.uarts u x }
def State.chk (s : State) (k : Nat) : Chk := tget {} s.chks k
def State.setChk (s : State) (k : Nat) (x : Chk) : State := { s with chks := tput {} s.chks k x }
def State.dacCh (s : State) (c : Nat) : DacCh := tget {} s.dac c
def State.setDacCh (s : State) (c : Nat) (x : DacCh) : State := { s with dac := tput {} s.dac c x }
def State.hm (s : State) (p : Nat) : HostMap := tget {} s.hmap p
def State.setHm (s : State) (p : Nat) (x : HostMap) : State := { s with hmap := tput {} s.hmap p x }
def State.ring (s : State) (p r : Nat) : Ring := tget {} (s.port p).rings r
def State.setRing (s : State) (p r : Nat) (x : Ring) : State :=
  let h := s.port p
  s.setPort p { h with rings := tput {} h.rings r x }

/-- The holder of semaphore n. -/
def State.holder (s : State) (n : Nat) : Option Req := tget none s.sems n
def State.setHolder (s : State) (n : Nat) (q : Option Req) : State := { s with sems := tput none s.sems n q }

/-- The stored program g. -/
def State.prog (s : State) (g : Nat) : Option Prog := (s.progs.find? fun e => e.1 == g).map (·.2)

/-! ### Rate and time -/

/-- The engine rate in hertz (MCK_CTRL.RATE). -/
def State.fs (s : State) : Nat :=
  match s.rf Reg.MCK_CTRL 3 2 with
  | 0 => 44100
  | 1 => 48000
  | 2 => 88200
  | _ => 96000

/-- The engine rate is 88.2 or 96 kHz. -/
def State.fast (s : State) : Bool := decide (2 ≤ s.rf Reg.MCK_CTRL 3 2)

/-- The control tick length in frames (MCK_CTRL.CTICK). -/
def State.ctick (s : State) : Nat :=
  match s.rf Reg.MCK_CTRL 9 8 with
  | 0 => 8
  | 1 => 16
  | _ => 32

/-- The frame of the latest strobe; 0 before the first. -/
def State.frame (s : State) : Nat := s.now.getD 0

/-- The block of the latest strobe (R8). -/
def State.block (s : State) : Nat := s.frame / 16

/-- Whole reference cycles since the first strobe (R574). -/
def State.refTotal (s : State) : Nat := s.refNow / 2 ^ 32 + s.refCyc

/-- EVT_NOW in ticks, its fraction included (R77). -/
def State.evtNow (s : State) : Nat :=
  s.frame * 256 + min 255 (s.refCyc * 256 * s.fs / 24576000)

/-- Voice slots at the engine rate (R39). -/
def State.slotLimit (s : State) : Nat := if s.fast then 4096 else 8192

/-- Tail slots at the engine rate (R39). -/
def State.tailLimit (s : State) : Nat := if s.fast then 128 else 256

/-- SCK cycles of a frame interval (R451). -/
def State.sckPerFrame (s : State) : Nat := if s.fast then 512 else 1024

/-! ### What runs in each phase -/

/-- The device has left OFF and its kept settings are in force: its serial ports and units act (R617 step 4). -/
def State.awake (s : State) : Bool :=
  match s.phase with
  | .waitSec => true
  | .selfTest => true
  | .waitStrobe => true
  | .run => true
  | .sleep => true
  | .commit => true
  | _ => false

/-- The start-up sequence has reached step 7 (PWR_STAT.READY). -/
def State.ready (s : State) : Bool :=
  match s.phase with
  | .run => true
  | .sleep => true
  | .commit => true
  | _ => false

/-- What happens on a pin or in a unit acts only once the device has left OFF. -/
def State.whenAwake (s t : State) : State := if s.awake then t else s

/-- The cores, the Puppeteer, the fabric, the allocator and the collector run: from step 5 of R617 on, but in SLEEP
(R609, R613, R617). -/
def State.engineRuns (s : State) : Bool :=
  match s.phase with
  | .selfTest => true
  | .waitStrobe => true
  | .run => true
  | .commit => true
  | _ => false

/-- A state change of a unit that SLEEP gates. -/
def State.whenRunning (s t : State) : State := if s.engineRuns then t else s

/-! ### Outcomes -/

/-- A command runs: the next state, with the queue as the command found it. -/
def done (s : State) (t : State) : Host.Outcome State Fault Refusal := .next { t with pending := s.pending }

/-- A command runs where its operands are well formed; nothing can send it otherwise. -/
def doneIf (ok : Bool) (mnemonic : String) (s : State) (t : State) : Host.Outcome State Fault Refusal :=
  if ok then done s t else .fault (.illFormed mnemonic)

end Sys2Proof.Machine
end

