-- ==== Sys2Proof/Machine/PciErr.lean ====
section
/-! DEFINITION. Errors of a host port and how they are signalled: the status bits of the configuration space, Advanced Error
Reporting, and the error messages (R476, R478). All of it follows the PCI Express base specification, which R476 names
(PRESUMED, unsafe: log entry 35). -/

namespace Sys2Proof.Machine

/-! ### Words of the configuration space -/

/-- Power-on value of a word of Advanced Error Reporting: the severities and the masks of errors; 0 elsewhere. -/
def aerReset (off : Nat) : Word :=
  match off with
  | 0x10C => 0x00062010
  | 0x114 => 0x00002000
  | _ => 0

/-- A word of Advanced Error Reporting. -/
def HostPort.aerWord (h : HostPort) (off : Nat) : Word := tget (aerReset off) h.aer off

/-- Stores a word of Advanced Error Reporting. -/
def HostPort.setAer (h : HostPort) (off : Nat) (w : Word) : HostPort := { h with aer := tput (aerReset off) h.aer off w }

/-- A bit of a stored word of the configuration space: command 0x04, Device Control 0x78, Device Control 2 0x98. -/
def HostPort.cfgBit (h : HostPort) (off n : Nat) : Bool := bit (tget 0 h.header off) n

/-- Sets status bits of a stored word. -/
def HostPort.noteCfg (h : HostPort) (off : Nat) (w : Word) : HostPort :=
  { h with header := tput 0 h.header off (tget 0 h.header off ||| w) }

/-- The First Error Pointer names an error whose status bit is still set. -/
def HostPort.firstErrorValid (h : HostPort) : Bool := bit (h.aerWord 0x104) (fld (h.aerWord 0x118) 4 0)

/-! ### Logging and signalling -/

/-- Uncorrectable error n enters its status word; the first one that is not masked is pointed at, and the header of its packet
logged: free values, as no command carries it. -/
def State.aerRecord (s : State) (p n : Nat) : State :=
  let h := s.port p
  let g := h.setAer 0x104 (h.aerWord 0x104 ||| onebit n)
  if bit (h.aerWord 0x108) n || h.firstErrorValid then s.setPort p g
  else
    let r := s.free 128
    let w (i : Nat) : Word := r.1.extractLsb' (32 * i) 32
    r.2.setPort p (((((g.setAer 0x118 (BitVec.ofNat 32 n)).setAer 0x11C (w 0)).setAer 0x120 (w 1)).setAer 0x124 (w 2)).setAer 0x128 (w 3))

/-- The bit of Device Status that an unsupported request sets beside the others. -/
def urDetected (ur : Bool) : Word := if ur then onebit 19 else 0

/-- An error of an unsupported request is reported only with Unsupported Request Reporting enabled. -/
def HostPort.urReports (h : HostPort) (ur : Bool) : Bool := !ur || h.cfgBit 0x78 3

/-- An advisory non-fatal error n is signalled as a correctable one. -/
def State.pciAdvisory (s : State) (p n : Nat) (ur : Bool) : State :=
  let h := (s.port p).noteCfg 0x78 (onebit 16 ||| urDetected ur)
  let h := h.setAer 0x110 (h.aerWord 0x110 ||| onebit 13)
  let t := s.setPort p h
  if bit (h.aerWord 0x114) 13 then t
  else
    let t := t.aerRecord p n
    if h.cfgBit 0x78 0 && h.urReports ur then t.send p .errCor else t

/-- An uncorrectable error n is signalled by its severity, unless it is masked; SERR# Enable does what the enables of Device
Control do, and sets Signaled System Error. -/
def State.pciUncorrectable (s : State) (p n : Nat) (ur : Bool) : State :=
  let fatal := bit ((s.port p).aerWord 0x10C) n
  let h := (s.port p).noteCfg 0x78 (onebit (if fatal then 18 else 17) ||| urDetected ur)
  let t := (s.setPort p h).aerRecord p n
  let serr := h.cfgBit 0x04 8
  if bit (h.aerWord 0x108) n || !(serr || (h.cfgBit 0x78 (if fatal then 2 else 1) && h.urReports ur)) then t
  else
    let t := if serr then t.setPort p ((t.port p).noteCfg 0x04 (onebit 30)) else t
    t.send p (if fatal then .errFatal else .errNonfatal)

/-- Uncorrectable error n meets the port; `advisory` for one that the base specification signals as advisory where its
severity is non-fatal, and `ur` for an unsupported request. -/
def State.pciError (s : State) (p n : Nat) (advisory ur : Bool) : State :=
  if advisory && !bit ((s.port p).aerWord 0x10C) n then s.pciAdvisory p n ur else s.pciUncorrectable p n ur

/-! ### The errors that the commands bring -/

/-- A descriptor read fails (R491): Received Master Abort, Received Target Abort, a poisoned completion (bit 12), or a completion
timeout (bit 14), which is not tried again. -/
def State.fetchError (s : State) (p : Nat) (how : FetchError) : State :=
  let h := s.port p
  match how with
  | .unsupported => s.setPort p (h.noteCfg 0x04 (onebit 29))
  | .abort => s.setPort p (h.noteCfg 0x04 (onebit 28))
  | .poisoned =>
    let parity : Word := if h.cfgBit 0x04 6 then onebit 24 else 0
    (s.setPort p (h.noteCfg 0x04 (onebit 31 ||| parity))).pciError p 12 true false
  | .timeout => s.pciError p 14 false false

/-- The completion of a read may time out: Completion Timeout Disable is clear (R478). -/
def HostPort.timesOut (h : HostPort) : Bool := !h.cfgBit 0x98 4

/-- A memory request meets a port that takes none: an unsupported request (bit 20), a read's being advisory, as its completion
says so too. -/
def State.unsupportedRequest (s : State) (p : Nat) (isWrite : Bool) : State := s.pciError p 20 (!isWrite) true

end Sys2Proof.Machine
end

