-- ==== Sys2Proof/Machine/Mck.lean ====
section
/-! DEFINITION. The media clock: reference candidates, the choice of a target, and the correction y of the
interval that begins (R450 to R472). -/

namespace Sys2Proof.Machine

/-- The limit of y: 500 ppm in units of 2^-40 (R451). -/
def yLimit : Int := 549755814

/-- The limit of a qualifying yr: 100 ppm (R459). -/
def yrLimit : Nat := 109951163

def State.setMck (s : State) (m : Mck) : State := { s with mck := m }
def State.cand (s : State) (r : Nat) : Candidate := tget {} s.mck.cands r
def State.setCand (s : State) (r : Nat) (c : Candidate) : State :=
  s.setMck { s.mck with cands := tput {} s.mck.cands r c }

/-- A phase reference (R457). -/
def isPhase (r : Nat) : Bool := decide (r < 3)

/-- The rate code of OUT_SPDIF_RX that equals the engine rate. -/
def State.rxRateCode (s : State) : Nat := s.rf Reg.MCK_CTRL 3 2 + 1

/-- Reference cycles of the interval in force, in units of 2^-32 cycle (R451). -/
def State.intervalRef (s : State) : Nat :=
  s.mck.interval * 24576000 * 2 ^ 72 / (s.fs * s.sckPerFrame * (2 ^ 40 + s.mck.y).toNat)

/-! ### Measurement (R453, R457, R458) -/

/-- The time of a position in the interval that runs, `n` parts of `d` from its strobe, in units of 2^-32 reference cycle. -/
def State.timeAt (s : State) (n : Int) (d : Nat) : Int := s.refNow + n * s.intervalRef / d

/-- The time of an instant in the interval that runs, in 1/256 SCK cycle from its strobe. -/
def State.timeIn (s : State) (pos : Nat) : Int := s.timeAt (min pos (256 * s.mck.interval)) (256 * s.mck.interval)

/-- An instant in 1/256 SCK cycle from the latest strobe. -/
def instant (cycle : BitVec 12) (part : Byte) : Nat := 256 * cycle.toNat + part.toNat

/-- How many nominal frames a gap comes to, to the nearest. -/
def State.framesIn (s : State) (gap : Int) : Nat := ((2 * gap * s.fs + 24576000 * 2 ^ 32) / (2 * 24576000 * 2 ^ 32)).toNat

/-- The entries up to and including the first old one. -/
def keepFrom (old : Nat × Int → Bool) : List (Nat × Int) → List (Nat × Int)
  | [] => []
  | x :: l => if old x then [x] else x :: keepFrom old l

/-- The offset of a clock that counted `n` units where `m` were nominal, in units of 2^-40, as an s32 (R458). -/
def clockOffset (n m : Int) : Int := clampI (divr (2 ^ 40 * (n - m)) m) (-(2 ^ 31)) (2 ^ 31 - 1)

/-- yr of a phase reference over its last 64 frames, once there are as many. -/
def State.edgeRate (s : State) (l : List (Nat × Int)) : Option Int :=
  match l.head?, l.getLast? with
  | some n, some o =>
    if o.1 + 64 ≤ n.1 ∧ o.2 < n.2 then
      some (clockOffset ((n.1 - o.1 : Nat) * 24576000 * 2 ^ 32) ((n.2 - o.2) * s.fs))
    else none
  | _, _ => none

/-- One second in units of 2^-32 reference cycle. -/
def refSecond : Int := 24576000 * 2 ^ 32

/-- yr of a frequency reference over its pairs of the last second, once there is a second of them. -/
def pairRate (l : List (Nat × Int)) : Option Int :=
  match l.head?, l.getLast? with
  | some n, some o =>
    if refSecond ≤ n.2 - o.2 then some (clockOffset (diffS64 n.1 o.1 * refSecond) ((n.2 - o.2) * 1000000000)) else none
  | _, _ => none

/-- A candidate takes a measure; without one it is not measured and its yr is 0. -/
def Candidate.rated (c : Candidate) (r : Option Int) : Candidate := { c with yr := r.getD 0, measured := r.isSome }

/-- The source conditions of R457. -/
def State.sourceOk (s : State) (r : Nat) : Bool :=
  match r with
  | 0 => !(s.cand 0).edges.isEmpty && decide ((s.cand 0).missed < 2)
  | 1 => s.rb Reg.OUT_SPDIF_RX 31 && s.rb Reg.OUT_SPDIF_RX 0 && decide (s.rf Reg.OUT_SPDIF_RX 7 4 = s.rxRateCode)
  | 2 => s.rb (Reg.OUT_TDM_CFG 0) 31 && s.rb (Reg.OUT_TDM_CFG 0) 30 && (s.cand 2).fits
  | _ => decide (s.rf (Reg.EVT_HMAP_CTRL (r - 3)) 2 1 = 1) && s.rb (Reg.EVT_HMAP_STAT (r - 3)) 2

/-- The conditions of R459 hold now, no expected edge being missing. -/
def State.candHolds (s : State) (r : Nat) : Bool :=
  let c := s.cand r
  s.rb (Reg.MCK_REF r) 31 && (if r = 0 then !c.edges.isEmpty else s.sourceOk r) && c.measured &&
    decide (c.yr.natAbs ≤ yrLimit) && (!isPhase r || decide (c.late = 0))

/-- The conditions of R459 that did not hold in `old` hold from an instant on: the 200 ms of candidate r begin. -/
def State.candBegins (old : State) (r : Nat) (time : Int) (s : State) : State :=
  if s.candHolds r && !old.candHolds r then s.setCand r { s.cand r with broke := time } else s

/-- The present instant, in units of 2^-32 reference cycle since the first strobe. -/
def State.timeNow (s : State) : Int := s.refNow + 2 ^ 32 * s.refCyc

/-- The same for every candidate, at the instant of a register write. -/
def State.candsBegin (old s : State) : State := iter (fun r t => State.candBegins old r t.timeNow t) 0 5 s

/-- A frame edge of a phase reference at `pos` (R457, R458). One less than half a frame after the edge before is extra: it
marks no frame (R459; DESIGN CHOICE, log entry 39). -/
def State.edgeSeen (s : State) (r pos : Nat) : State :=
  let c := s.cand r
  let t := s.timeIn pos
  match c.edges with
  | [] => s.setCand r { c with edges := [(0, t)], pos := some pos }
  | e :: l =>
    let n := s.framesIn (t - e.2)
    if n = 0 then s.setCand r { c with extra := true, broke := t }
    else
      let es := keepFrom (fun x => decide (x.1 + 64 ≤ e.1 + n)) ((e.1 + n, t) :: e :: l)
      State.candBegins s r t (s.setCand r ({ c with
        edges := es, pos := some pos, skipped := max c.skipped (n - 1), late := 0
        broke := if n = 1 then c.broke else t }.rated (s.edgeRate es)))

/-- A PTM pair of port p, taken when engine time was `e` ticks (R81, R458). A re-anchor begins its second anew (R459); `old` is
the state before the pair. -/
def State.pairSeen (old s : State) (p h e : Nat) (restart : Bool) : State :=
  let c := s.cand (3 + p)
  let t := s.timeAt ((e : Int) - 256 * s.frame) 256
  let l := keepFrom (fun x => decide (refSecond ≤ t - x.2)) ((h, t) :: if restart then [] else c.pairs)
  State.candBegins old (3 + p) t (s.setCand (3 + p) ({ c with pairs := l }.rated (pairRate l)))

/-- The conditions of R459 as R460 judges them: a missing edge counts once two have been missed in a row. -/
def State.candOk (s : State) (r : Nat) : Bool :=
  let c := s.cand r
  s.rb (Reg.MCK_REF r) 31 && s.sourceOk r && c.measured && decide (c.yr.natAbs ≤ yrLimit) &&
    (!isPhase r || (decide (c.missed < 2) && !c.extra))

/-- Wraps a phase error into half a frame either way, (−128 L, 128 L] in units of 1/256 cycle (R458). -/
def wrapPhase (l : Nat) (x : Int) : Int :=
  let full : Int := 256 * l * 2 ^ 32
  let m := x % full
  if full / 2 < m then m - full else m

/-- The phase error of a reference at the strobe that ends the interval in force: from its latest edge, or carried on where
none came (R458; DESIGN CHOICE, log entry 39). -/
def State.phaseAt (s : State) (c : Candidate) : Int :=
  let l := s.sckPerFrame
  match c.pos with
  | some p => wrapPhase l (((256 * s.mck.interval : Nat) - (p : Int)) * 2 ^ 32)
  | none => wrapPhase l (c.phase - l * (s.mck.y - c.yr) + ((s.mck.interval : Int) - l) * 2 ^ 40)

/-- What a strobe makes of the edges of the interval it ends (R458, R460). -/
def State.measureCand (s : State) (r : Nat) : State :=
  let c := s.cand r
  let late := match c.edges with
    | [] => 0
    | e :: _ => s.framesIn (s.refNow - e.2) - 1
  s.setCand r { c with phase := s.phaseAt c, pos := none, missed := max c.skipped late, skipped := 0, late := late }

/-- All phase references, at a strobe that ends an interval. -/
def State.measureCands (s : State) : State := iter (fun r t => t.measureCand r) 0 3 s

/-! ### Qualification (R459, R460) -/

/-- Candidate r qualifies at an instant up to which its conditions have held for 200 ms (R459). -/
def State.qualify (s : State) (r pos : Nat) : State :=
  let c := s.cand r
  if s.rb Reg.MCK_CTRL 0 && s.candOk r && decide (refSecond ≤ 5 * (s.timeIn pos - c.broke)) then
    s.setCand r { c with qualified := true }
  else s

/-- Disqualifies what fails at a strobe (R460), and notes the break where not all holds then: for that no expected edge may be
missing (R459). -/
def State.updateQual (s : State) : State :=
  iter (fun r t =>
    let c := t.cand r
    let ok := t.candOk r
    t.setCand r { c with
      qualified := c.qualified && ok
      broke := if t.candHolds r then c.broke else t.refNow
      extra := false }) 0 5 s

/-! ### Targets (R461, R462, R467) -/

/-- The qualified candidate of highest PRIO, ties to the lower r (R461). -/
def State.bestCand (s : State) : Option Nat :=
  (List.range 5).foldl (fun best r =>
    if (s.cand r).qualified then
      match best with
      | none => some r
      | some b => if s.rf (Reg.MCK_REF b) 30 28 < s.rf (Reg.MCK_REF r) 30 28 then some r else some b
    else best) none

/-- The target that R461 chooses. -/
def State.chooseTarget (s : State) : Option Nat :=
  match s.mck.target, s.bestCand with
  | some t, some b =>
    if (s.cand t).qualified then
      (if s.rf (Reg.MCK_REF t) 30 28 < s.rf (Reg.MCK_REF b) 30 28 then some b else some t)
    else some b
  | _, b => b

/-- The state without a target (R462). -/
def State.idleState (s : State) : MckState := if s.rb Reg.MCK_CTRL 4 then .holdover else .free

/-- The target is none: the state follows HOEN (R462). -/
def State.untargeted (s : State) : State := s.setMck { s.mck with st := s.idleState }

/-- The old target has been disqualified. -/
def State.targetLost (s : State) : Bool :=
  match s.mck.target with
  | some t => !(s.cand t).qualified
  | none => false

/-- Counts and flags a change of target (R460, R461, R467). -/
def State.noteSwitch (s : State) : State :=
  let t := if s.targetLost then (s.count (Reg.MCK_CNT 1)).mckFlag 5 else s
  let t := (t.count (Reg.MCK_CNT 0)).mckFlag 6
  if t.mck.st = .glide then t.mckFlag 7 else t

/-- The state that a new target brings (R462, R467). A snap leaves the state as it was until it is LOCKED, from the next
strobe (R468; DESIGN CHOICE, log entry 39). A LOCKED period goes on from one frequency reference to another, and through a
snap made in LOCKED (R465). -/
def State.takeTarget (s : State) (new : Option Nat) : State :=
  let m : Mck := { s.mck with target := new, lockNext := false }
  match new with
  | none => (s.setMck m).untargeted
  | some r =>
    if isPhase r = false then
      s.setMck { m with st := .locked, lockedY := if m.st = .locked then m.lockedY else [] }
    else if s.rb Reg.MCK_CTRL 5 then s.setMck { m with lockNext := true }
    else s.setMck { m with st := .glide, lockedY := [] }

/-- The choice of a target at a strobe (R461). -/
def State.retarget (s : State) : State :=
  let new := s.chooseTarget
  if new ≠ s.mck.target then s.noteSwitch.takeTarget new
  else if new.isNone then s.untargeted
  else s

/-- y under R463 and R464: the state and the correction for the next interval. -/
def State.glideY (s : State) (r : Nat) : Int × Bool :=
  let c := s.cand r
  let g : Int := s.rf Reg.MCK_GLIDE 13 0 * 65536
  let q := divr c.phase s.sckPerFrame
  if q.natAbs ≤ g.natAbs then (clampI (c.yr + q) (-yLimit) yLimit, true)
  else (clampI (if 0 < c.phase then c.yr + g else c.yr - g) (-yLimit) yLimit, false)

/-- y in LOCKED (R464). -/
def State.lockedCorrection (s : State) (r : Nat) : Int :=
  let c := s.cand r
  let g : Int := s.rf Reg.MCK_GLIDE 13 0 * 65536
  if isPhase r then clampI (c.yr + clampI (divr c.phase (64 * s.sckPerFrame)) (-g) g) (-yLimit) yLimit
  else clampI c.yr (-yLimit) yLimit

/-- Takes an interval's y into the mean of R465. -/
def State.holdMean (s : State) (y : Int) : State :=
  let l := (y :: s.mck.lockedY).take s.fs
  s.setMck { s.mck with lockedY := l, yHold := divr (l.foldl (· + ·) 0) l.length }

/-- The SCK cycles by which a snap lengthens the interval, rounded up (R468). -/
def State.snapCycles (s : State) (r : Nat) : Nat :=
  let full : Int := 256 * s.sckPerFrame * 2 ^ 32
  let d := ((-(s.cand r).phase) % full).toNat
  (d + 2 ^ 40 - 1) / 2 ^ 40

/-- Sets y and the interval that begins (R451, R468). -/
def State.beginInterval (s : State) (y : Int) (extra : Nat) : State :=
  s.setMck { s.mck with y := y, interval := s.sckPerFrame + extra }

/-- Marks the read-outs of frames before `bound` invalid (R469). -/
def State.markInvalid (s : State) (bound : Nat) : State :=
  { s with col := { s.col with invalidTo := max s.col.invalidTo bound } }

/-- LOCKED from this strobe, where the latest interval ended a glide or a snap (R463, R468). -/
def State.lockNow (s : State) : State :=
  if s.mck.lockNext then
    s.setMck { s.mck with
      st := .locked, lockNext := false, lockedY := if s.mck.st = .locked then s.mck.lockedY else [] }
  else s

/-- The media clock's update at a strobe (R452, R461 to R468). -/
def State.mckUpdate (s : State) (first : Bool) : State :=
  let s := (if first then s else s.measureCands).updateQual.lockNow.retarget
  match s.mck.target with
  | none => s.beginInterval (if s.mck.st = .holdover then s.mck.yHold else 0) 0
  | some r =>
    if s.mck.lockNext then
      let y := clampI (s.cand r).yr (-yLimit) yLimit
      let t := if s.mck.st = .locked then s.holdMean y else s
      (t.beginInterval y (s.snapCycles r)).markInvalid (s.frame + 9)
    else if s.mck.st = .glide then
      let g := s.glideY r
      (s.setMck { s.mck with lockNext := g.2 }).beginInterval g.1 0
    else
      let y := s.lockedCorrection r
      (s.holdMean y).beginInterval y 0

/-- The collector as the media clock starts: block numbers begin again, and no sum, mark or held input is left of the earlier
ones (R75, R368). -/
def Collector.restart (c : Collector) : Collector :=
  { c with acc := [], settings := [], opened := none, closed := [], accepted := [], kept := [], cuts := [], inputs := [], invalidTo := 0 }

/-- A context as block numbers begin again: what it notes of the earlier blocks goes. -/
def Ctx.restart (c : Ctx) : Ctx := { c with past := [], tasked := none, pubBlk := none }

/-- EN of the media clock is set: FREE, y and y_hold 0, nothing measured; engine time is 0 at its first strobe (R75, R462,
R465). -/
def State.mckStart (s : State) : State :=
  let t : State := { s with
    mck := { st := .free, interval := s.sckPerFrame }, col := s.col.restart, evals := [], now := none, refNow := 0, refCyc := 0 }
  (t.ctxs.map (·.1)).foldl (fun u x => u.setCtx x (u.ctx x).restart) t

/-- Engine time at a strobe: 0 at the first after the media clock's start, then one frame more (R75, R574). An interval that
was spent in HOLDOVER or FREE is counted (R472). -/
def State.clockAdvance (s : State) : State :=
  match s.now with
  | none => { s with now := some 0, strobes := s.strobes + 1, refNow := 0, refCyc := 0 }
  | some f =>
    let spent := decide (s.mck.st = .holdover) || decide (s.mck.st = .free)
    let t := if spent then s.count (Reg.MCK_CNT 3) else s
    let ref := s.refNow + s.intervalRef
    { t with
      now := some (f + 1), strobes := s.strobes + 1, refNow := ref, refCyc := 0, refAll := s.refAll + (ref / 2 ^ 32 - s.refTotal) }

/-- Nothing is commanded: one cycle of the 24.576 MHz reference passes (R568), within the interval that runs (R77, R574). -/
def State.idle (s : State) : State :=
  let n :=
    if s.now.isNone then s.refCyc
    else if s.mck.st = .off then s.refCyc + 1
    else if s.refCyc + 1 < s.intervalRef / 2 ^ 32 then s.refCyc + 1
    else s.refCyc
  { s with refCyc := n, refAll := s.refAll + if s.now.isNone then 1 else n - s.refCyc }

/-- EN of the media clock is cleared: OFF (R462). -/
def State.mckStop (s : State) : State := { s with mck := { st := .off, yHold := s.mck.yHold } }

/-- MCK_STAT.STATE. -/
def MckState.code : MckState → Nat
  | .off => 0
  | .free => 1
  | .holdover => 2
  | .glide => 3
  | .locked => 4

/-- The reference in force: the target while the state is LOCKED (R462). -/
def State.inForce (s : State) : Option Nat := if s.mck.st = .locked then s.mck.target else none

/-- MCK_STAT as read: the sticky bits are stored, the rest is computed. -/
def State.mckStat (s : State) : Word :=
  let tgt := s.mck.target.getD 7
  let frc := s.inForce.getD 7
  let qual := sumOf (fun r => if (s.cand r).qualified then 2 ^ r else 0) (List.range 5)
  let w := setFld (s.reg Reg.MCK_STAT) 31 29 s.mck.st.code
  setFld (setFld (setFld w 28 26 tgt) 25 23 frc) 4 0 qual

/-- MCK_PHASE as read. -/
def State.mckPhase (s : State) : Word :=
  match s.mck.target with
  | some r => if isPhase r then wordI (rnd (s.cand r).phase 32) else 0
  | none => 0

/-- MCK_YREF as read: 0 while it cannot be measured. -/
def State.mckYref (s : State) (r : Nat) : Word :=
  if s.sourceOk r && (s.cand r).measured then wordI (s.cand r).yr else 0

end Sys2Proof.Machine
end

