-- ==== Sys2Proof/Machine/Place.lean ====
section
/-! DEFINITION. Capacity, admission and placement: the budgets of R33 to R43, the qualification and choice of a
Voice Engine (R317 to R320), the overhead budget (R327, R328) and residency (R321). -/

namespace Sys2Proof.Machine

/-! ### Budgets -/

/-- V of R33, in bundles per frame. -/
def State.vBudget (s : State) : Nat := s.age.rplan * 1000000 * 7 / (8 * s.fs)

/-- N_VE: Voice Engines enabled at the operating point; one held in HALTFAULT is not counted (R34, R246, R247). -/
def State.nve (s : State) : Nat :=
  sumOf (fun n => if (s.core n).st = .off ∨ (s.core n).st = .haltfault then 0 else 1) (List.range 64)

/-- Entry t of the fixed task table has EN set. -/
def State.taskEn (s : State) (t : Nat) : Bool := s.rb (Reg.PUP_TASK_CFG t) 31

/-- PRIO of a fixed task entry is P1. -/
def State.taskP1 (s : State) (t : Nat) : Bool := decide (s.rf (Reg.PUP_TASK_CFG t) 29 28 = 1)

/-- Program number of a fixed task entry. -/
def State.taskProg (s : State) (t : Nat) : Nat := s.rf (Reg.PUP_TASK_CFG t) 17 8

/-- Voice Engine of a fixed task entry. -/
def State.taskVe (s : State) (t : Nat) : Nat := s.rf (Reg.PUP_TASK_CFG t) 27 22

/-- The entries whose EN is 1: EN is 0 at Power-on, so each is a listed register. -/
def State.enabledTasks (s : State) : List Nat :=
  (s.listed (Reg.PUP_TASK_CFG 0) 256 16).filterMap fun e => if bit e.2 31 then some e.1 else none

/-- COST of program g, 0 when it is not stored. -/
def State.costOf (s : State) (g : Nat) : Nat := ((s.prog g).map (·.cost)).getD 0

/-- LEN of program g, 0 when it is not stored. -/
def State.lenOf (s : State) (g : Nat) : Nat := ((s.prog g).map (·.len)).getD 0

/-- c_max of R34. -/
def State.cMax (s : State) : Nat :=
  max (maxOf (fun e => if e.2.kind = 1 then e.2.cost else 0) s.progs)
    (maxOf (fun t => if s.taskP1 t then s.costOf (s.taskProg t) else 0) s.enabledTasks)

/-- S_max of R36, in bytes. -/
def State.sMax (s : State) : Nat := maxOf (fun e => if e.2.kind = 1 then e.2.mem * 64 else 0) s.progs

/-- The voice pool size P in bytes (R36, R323). -/
def State.poolBytes (s : State) : Nat := s.rf Reg.PUP_CTRL 28 24 * 4096

/-- A of R34 from the present settings. -/
def State.aBudget (s : State) : Nat := s.nve * (s.vBudget - s.cMax)

/-- The memory bound of R36. -/
def State.memLimit (s : State) : Nat := s.nve * (s.poolBytes - s.sMax)

/-- The declared cost of all live contexts and the bus tasks in effect (R36). DESIGN CHOICE, safe: the context of a FAULTED
slot or of a faulted tail is a live one here, and in `memSum`, until its slot is freed at the block end (log entry 54). -/
def State.costSum (s : State) : Nat :=
  sumOf (fun e => if e.2.placed then e.2.cost else 0) s.ctxs +
  sumOf (fun t => if s.taskP1 t then s.costOf (s.taskProg t) else 0) s.taskOn

/-- The declared memory of all live contexts, in bytes (R36). -/
def State.memSum (s : State) : Nat := sumOf (fun e => if e.2.placed then e.2.size * 64 else 0) s.ctxs

/-- admits of R125 for a program, with the context of a victim removed. -/
def State.admits (s : State) (g : Prog) (victim : Option Nat) : Bool :=
  let c := match victim with
    | none => ({} : Ctx)
    | some v => s.ctx v
  decide (s.costSum + g.cost ≤ s.budget + c.cost) &&
  decide (s.memSum + g.mem * 64 ≤ s.memLimit + c.size * 64)

/-- R36 holds with a tail of these needs counted, its voice slot going to a new context of needs `g` (R134). -/
def State.admitsTail (s : State) (g : Prog) : Bool :=
  decide (s.costSum + g.cost ≤ s.budget) && decide (s.memSum + g.mem * 64 ≤ s.memLimit)

/-- The cost of all reserved minimums (R43). -/
def State.minCost (s : State) : Nat :=
  sumOf (fun e => fld e.2 13 0) (s.listed (Reg.VAL_PART_QUOTA 0) 1024 4) * s.cMax

/-- A changed budget takes effect at a block boundary (R40) and is flagged (R52). -/
def State.budgetBoundary (s : State) : State :=
  if s.aBudget = s.budget then s else { s with budget := s.aBudget }.det 6

/-! ### Voice Engines -/

/-- The overhead budget O of a core (R327), in cycles. -/
def State.overheadLimit (s : State) : Nat :=
  let first := s.age.rplan * 1000000 * 16 * 2000 / (s.fs * 2001)
  let tfix := if s.ctick = 8 then 928 else 528
  first - 16 * s.vBudget - (s.age.rplan * tfix + 99) / 100

/-- Cycles of a residency load of `len` bundles at R_plan (R321, R328). -/
def State.loadCycles (s : State) (len : Nat) : Nat := (s.age.rplan * (400 + 5 * len) + 1999) / 2000

/-- Cycles of zeroing, copying or moving a region of `size` 64 B units (R319, R322). -/
def areaCycles (size : Nat) : Nat := 16 + size * 4

/-- The core on which a context is placed for the current block, its migration counted. -/
def Ctx.home (c : Ctx) : Nat :=
  match c.mig with
  | some m => m.toVe
  | none => c.ve

/-- The region of a context on its home, its migration counted (R325). -/
def Ctx.homeBase (c : Ctx) : Nat :=
  match c.mig with
  | some m => m.toBase
  | none => c.base

/-- A context at another placement epoch, from block k on. Of several epochs of one block the one before them all stays
the epoch of the block before (R46). -/
def Ctx.atEpoch (c : Ctx) (k : Nat) (e : BitVec 8) : Ctx :=
  { c with
    epoch := e
    past := match c.past with
      | [] => [(k, c.epoch)]
      | p :: l => if k ≤ p.1 then p :: l else (k, c.epoch) :: p :: l }

/-- A context at the next placement epoch, from block k on (R319, R325). -/
def Ctx.nextEpoch (c : Ctx) (k : Nat) : Ctx := c.atEpoch k (c.epoch + 1)

/-- The running and the saved tasks of a core. -/
def Core.active (c : Core) : List TaskRun :=
  (match c.run with
   | some r => [r]
   | none => []) ++ c.saved

/-- The regions of core n's voice pool in which a voice or tail task is running or saved, its context gone or not, in 64 B
units: base and size. -/
def Core.taskRegions (c : Core) : List (Nat × Nat) :=
  c.active.filterMap fun r => if r.task.tag.toNat < 2 ^ 15 then some (r.task.region, r.task.size) else none

/-- The contexts that core n holds or will hold: index and entry. -/
def State.ctxsOn (s : State) (n : Nat) : List (Nat × Ctx) :=
  s.ctxs.filter fun e => e.2.placed && decide (e.2.home = n)

/-- The regions of core n's voice pool that contexts hold, in 64 B units: base and size. -/
def State.regionsOn (s : State) (n : Nat) : List (Nat × Nat) :=
  (s.ctxs.filter fun e => e.2.placed && decide (e.2.ve = n)).map (fun e => (e.2.base, e.2.size)) ++
  (s.ctxs.filterMap fun e =>
    match e.2.mig with
    | some m => if e.2.placed && decide (m.toVe = n) then some (m.toBase, e.2.size) else none
    | none => none)

/-- The enabled fixed tasks of core n. -/
def State.tasksOn (s : State) (n : Nat) : List Nat := s.enabledTasks.filter fun t => decide (s.taskVe t = n)

/-- The planned load of core n: the COST sum of its contexts and enabled P1 tasks (R317, R318). -/
def State.planLoad (s : State) (n : Nat) : Nat :=
  sumOf (fun e => e.2.cost) (s.ctxsOn n) +
  sumOf (fun t => if s.taskP1 t then s.costOf (s.taskProg t) else 0) (s.tasksOn n)

/-- Two ranges overlap. -/
def overlaps (a n b m : Nat) : Bool := decide (a < b + m) && decide (b < a + n)

/-- The lowest free run of `size` units in [lo, hi), the used regions given. -/
def freeRun (used : List (Nat × Nat)) (lo hi size : Nat) : Option Nat :=
  let cands := (lo :: used.map fun r => r.1 + r.2).filter fun b =>
    decide (lo ≤ b) && decide (b + size ≤ hi) && used.all fun r => !overlaps b size r.1 r.2
  match cands with
  | [] => none
  | c :: cs => some (cs.foldl min c)

/-- The lowest free run of a core's voice pool for a region of `size` units (R317). A region that a cut or freed voice's late
task still uses is not free (R153, R165; DEDUCED, safe: log entry 55). -/
def State.poolRun (s : State) (n size : Nat) : Option Nat :=
  freeRun (s.regionsOn n ++ (s.core n).taskRegions) (2048 - s.rf Reg.PUP_CTRL 28 24 * 64) 2048 size

/-- The distinct programs of a core's contexts and enabled fixed tasks. -/
def State.progsOn (s : State) (n : Nat) : List Nat :=
  ((s.ctxsOn n).map (fun e => e.2.prog) ++ (s.tasksOn n).map s.taskProg).eraseDups

/-- Program g is resident on core n. -/
def Core.hasProg (c : Core) (g : Nat) : Bool := c.resident.any fun r => decide (r.prog = g) && !r.loading

/-- Program g is resident on core n or its load has been started. -/
def Core.willHave (c : Core) (g : Nat) : Bool := c.resident.any fun r => decide (r.prog = g)

/-- Core n is strained in the present block (R332). -/
def State.strained (s : State) (n : Nat) : Bool := decide (s.block < (s.core n).strain)

/-- Cycles of the copy of a context (R325). -/
def copyCycles (c : Ctx) (frame : Bool) : Nat := 16 + (c.size * 64 - 256) / 16 + (if frame then 8 else 0)

/-- The overhead of core n that is certain and not yet charged: the dispatches of its queued tasks and of those that its
contexts will have in this block, the restores of its saved tasks, and the copies of migrations assigned (R316, R325,
R328). -/
def State.overheadDue (s : State) (n : Nat) : Nat :=
  let c := s.core n
  let toCome := (s.ctxsOn n).filter fun e => decide (e.2.tasked ≠ some s.block) &&
    !(decide (e.1 < 8192) && decide ((s.slot e.1).state = .faulted))
  8 * (c.list.length + toCome.length) + 64 * c.saved.length +
    sumOf (fun e => match e.2.mig with
      | some m => if !m.copying && (decide (e.2.ve = n) || decide (m.toVe = n)) then copyCycles e.2 true else 0
      | none => 0) s.ctxs

/-- An overhead item of `k` cycles fits within O after every item already counted on core n, what is certain to come in
the block counted in advance (R328). -/
def State.overheadFits (s : State) (n k : Nat) : Bool :=
  decide ((s.core n).overhead + s.overheadDue n + k ≤ s.overheadLimit)

/-- The depth of a core's ready list: the queued and the saved tasks (R304, R311). -/
def Core.depth (c : Core) : Nat := min 256 (c.list.length + c.saved.length)

/-- The queued tasks that hold a descriptor of the ready list. The others wait for one, in order (R53, R311; DESIGN CHOICE,
safe: log entry 56). -/
def Core.listed (c : Core) : List Task := c.list.take (256 - c.saved.length)

/-- Counts overhead cycles against O on core n. -/
def State.charge (s : State) (n k : Nat) : State :=
  let c := s.core n
  s.setCore n { c with overhead := c.overhead + k, busy := c.busy + k }

/-- Core n qualifies to take a new context of program g with cost, size and number (R317), its ready list not being full
(R53). -/
def State.qualifies (s : State) (n gnum : Nat) (g : Prog) : Bool :=
  let c := s.core n
  let ok := match c.st with
    | .off => false
    | .haltfault => false
    | _ => true
  ok && c.kernel.isNone && !s.strained n && decide (c.depth < 256) &&
  decide (s.planLoad n + g.cost ≤ s.vBudget) &&
  (s.poolRun n g.mem).isSome &&
  decide ((s.ctxsOn n).length + (s.tasksOn n).length < 255) &&
  decide (sumOf s.lenOf (gnum :: s.progsOn n).eraseDups ≤ 4096) &&
  (c.willHave gnum || (!c.loadStarted && s.overheadFits n (s.loadCycles g.len)))

/-- Core n comes before core m in the order of R318 for program g. A program whose load still runs is not resident. -/
def State.placeBefore (s : State) (g n m : Nat) : Bool :=
  let rn := (s.core n).hasProg g
  let rm := (s.core m).hasProg g
  if rn ≠ rm then rn
  else if s.planLoad n ≠ s.planLoad m then decide (s.planLoad n < s.planLoad m)
  else decide (n < m)

/-- The Voice Engine on which R318 places a new context, if any qualifies. -/
def State.choosePlace (s : State) (gnum : Nat) (g : Prog) : Option Nat :=
  (List.range 64).foldl (fun best n =>
    if s.qualifies n gnum g then
      match best with
      | none => some n
      | some m => if s.placeBefore gnum n m then some n else some m
    else best) none

/-- Frees the placement of context x: its region and its cost (R319). The epoch is kept. -/
def State.unplace (s : State) (x : Nat) : State :=
  let c := s.ctx x
  s.setCtx x { ({} : Ctx) with epoch := c.epoch, past := c.past }

/-- The placements that R125 judges for a steal: the victim's context gone when it will be cut, and on the core where it
lies when it will move to a tail, a migration not yet copied being abandoned (R319, R678). -/
def State.withoutVictim (s : State) (victim : Option Nat) (tail : Bool) : State :=
  match victim with
  | none => s
  | some v => if tail then s.setCtx v { s.ctx v with mig := none } else s.unplace v

/-- placeable of R125. -/
def State.placeable (s : State) (gnum : Nat) (g : Prog) (victim : Option Nat) (tail : Bool) : Bool :=
  ((s.withoutVictim victim tail).choosePlace gnum g).isSome

/-! ### Residency -/

/-- Programs of core n that a context, an enabled fixed task, or a queued, running or saved task uses (R169, R321). -/
def State.progsInUse (s : State) (n : Nat) : List Nat :=
  let c := s.core n
  s.progsOn n ++ c.list.map (·.prog) ++ c.saved.map (fun r => r.task.prog) ++
    (match c.run with
     | some r => [r.task.prog]
     | none => [])

/-- Evicts unused programs, least recently dispatched first, until `len` bundles fit beside the rest (R321). -/
def evictFor (inUse : List Nat) (len : Nat) : Nat → List Resident → List Resident
  | 0, rs => rs
  | fuel + 1, rs =>
    if sumOf (·.len) rs + len ≤ 4096 then rs
    else
      match rs.filter fun r => !inUse.contains r.prog with
      | [] => rs
      | r :: l =>
        let v := l.foldl (fun a b => if b.lastUse < a.lastUse then b else a) r
        evictFor inUse len fuel (rs.filter fun x => decide (x.prog ≠ v.prog))

/-- Inserts a resident program by its base. -/
def insertResident (r : Resident) : List Resident → List Resident
  | [] => [r]
  | x :: l => if r.base ≤ x.base then r :: x :: l else x :: insertResident r l

/-- Moves the resident programs of core n down, lowest first, so that the free space forms one run. -/
def State.packResidents (n : Nat) : Nat → List Resident → State → List Resident × State
  | _, [], s => ([], s)
  | base, r :: l, s =>
    let s := if r.base = base then s else s.copyBytes (imBase n + 8 * r.base) (imBase n + 8 * base) (8 * r.len)
    let p := State.packResidents n (base + r.len) l s
    ({ r with base := base } :: p.1, p.2)

/-- Makes room for program g on core n beside `rest`, its resident programs: unused ones are evicted, and the others move
together where no free run is long enough. The program waits for room while those that a running, queued or saved task
still uses leave too little (R169, R321; DESIGN CHOICE, safe: log entry 57). -/
def State.roomFor (s : State) (n gnum len : Nat) (rest : List Resident) : List Resident × State :=
  let kept := evictFor (s.progsInUse n) len 4096 rest
  let entry (base : Nat) (room : Bool) : Resident :=
    { prog := gnum, base := base, len := len, loading := true, noRoom := !room }
  if 4096 < sumOf (·.len) kept + len then (kept ++ [entry 0 false], s)
  else
    let there := kept.filter fun r => !r.noRoom
    match freeRun (there.map fun r => (r.base, r.len)) 0 4096 len with
    | some base => (kept ++ [entry base true], s)
    | none =>
      let p := State.packResidents n 0 (there.foldr insertResident []) s
      (p.1 ++ kept.filter (·.noRoom) ++ [entry (sumOf (·.len) p.1) true], p.2)

/-- Starts the residency load of program g on core n (R321), if the program is not there already. -/
def State.startLoad (s : State) (n gnum : Nat) : State :=
  let c := s.core n
  if c.willHave gnum then s
  else
    let len := s.lenOf gnum
    let p := s.roomFor n gnum len c.resident
    ((p.2.setCore n { c with resident := p.1, loadStarted := true }).charge n (s.loadCycles len)).count (Reg.PUP_CNT 1)

/-- Places a new context x of program g, whose first block is k: the epoch advances, the core of R318 is taken and the
context area is zeroed (R153, R318, R319). Answers none when no core qualifies. -/
def State.place (s : State) (x gnum k : Nat) (g : Prog) : Option State :=
  match s.choosePlace gnum g with
  | none => none
  | some n =>
    match s.poolRun n g.mem with
    | none => none
    | some base =>
      let next := (s.ctx x).nextEpoch k
      let c : Ctx := {
        placed := true, ve := n, base := base, size := g.mem, cost := g.cost, prog := gnum,
        epoch := next.epoch, past := next.past }
      let t := (s.setCtx x c).clearBytes (lmBase n + base * 64) (g.mem * 64 - 256)
      some ((t.charge n (areaCycles g.mem)).startLoad n gnum)

/-- A grant, steal or free enters the intake (R311). -/
def State.intakeOne (s : State) : State :=
  let n := s.intake + 1
  let t := { s with intake := min n 4096 }.peak Reg.PUP_INTAKE 28 16 (min n 4096)
  if n = 4096 then (t.count (Reg.PUP_CNT 2)).pupFlag 0 else t

/-- The intake is full: EVT pauses releases (R98, R311). -/
def State.intakeFull (s : State) : Bool := decide (4096 ≤ s.intake)

end Sys2Proof.Machine
end

