-- ==== Sys2Proof/Machine/Collect.lean ====
section
/-! DEFINITION. The collector, the output and input maps, the TDM ports and S/PDIF (R364 to R397). -/

namespace Sys2Proof.Machine

/-! ### Deadlines and settings -/

/-- The output pipeline depth D (R27). -/
def State.depth (s : State) : Nat := s.rf Reg.COL_CTRL 3 0

/-- COL_CTRL.RMAX (R372). -/
def State.rmax (s : State) : Nat := s.rf Reg.COL_CTRL 10 8

/-- The frame of the deadline strobe of rank r for block k, D and RMAX given (R373). -/
def deadline (d rmax k r : Nat) : Nat :=
  if r = 0 then 16 * (k + 1) else 16 * (k + 1) + (r * 16 * (d - 1) + rmax - 1) / rmax

/-- DL(r) for block k (R373). -/
def State.dl (s : State) (k r : Nat) : Nat := deadline s.depth s.rmax k r

/-- The COL_BUS word in force for a block (R378). -/
def State.busSet (s : State) (k b : Nat) : Word := tget 0 s.col.settings (k * 256 + b)

/-- RANK of a bus for a block. -/
def State.busRank (s : State) (k b : Nat) : Nat := fld (s.busSet k b) 2 0

/-- OWNER of a bus for a block. -/
def State.busOwner (s : State) (k b : Nat) : Nat := fld (s.busSet k b) 31 30

/-- Number of input buses of a fixed task. -/
def State.taskNin (s : State) (t : Nat) : Nat := s.rf (Reg.PUP_TASK_CFG t) 21 19

/-- Input bus i of a fixed task. -/
def State.taskIn (s : State) (t i : Nat) : Nat := s.rf (Reg.PUP_TASK_IN t) (8 * i + 7) (8 * i)

/-- The owner of a fixed task entry (R307). -/
def State.taskOwner (s : State) (t : Nat) : Nat := s.rf (Reg.PUP_TASK_CFG t) 7 6

/-- The rank of a P1 entry for a block (R372). -/
def State.taskRank (s : State) (k t : Nat) : Nat :=
  maxOf (fun i => s.busRank k (s.taskIn t i)) (List.range (s.taskNin t))

/-- The closing strobe of a P1 task's stage (R375). -/
def State.p1Close (s : State) (k t : Nat) : Nat :=
  let q := s.taskRank k t
  s.dl k (if q = s.rmax then q else q + 1)

/-! ### Accumulators (R368, R370) -/

def accKey (k b j : Nat) : Nat := k * 4096 + b * 16 + j

/-- A bus frame: the exact sum so far. -/
def State.bus (s : State) (k b j : Nat) : Int := tget 0 s.col.acc (accKey k b j)

/-- Adds a term exactly into a bus frame (R368). -/
def State.addBus (s : State) (k b j : Nat) (x : Int) : State :=
  { s with col := { s.col with acc := tput 0 s.col.acc (accKey k b j) (s.bus k b j + x) } }

/-- A bus frame read out as Q1.31, 24-bit or 16-bit (R370): `w` is 32, 24 or 16. -/
def readForm (w : Nat) (x : Int) : Int :=
  clampI (if w < 32 then rnd x (32 - w) else x) (-(2 ^ (w - 1))) (2 ^ (w - 1) - 1)

/-- Adds one lane into a bus, frames 0 to 15 (R368). -/
def State.addLane (s : State) (k b : Nat) (frames : List Word) : State :=
  iter (fun j t => t.addBus k b j (frames.getD j 0).toInt) 0 16 s

/-! ### Who may feed a bus (R366, R367) -/

/-- Kind of a task tag (R303): 0 voice, 1 tail, 2 fixed task, 3 device kernel. -/
def tagKind (t : BitVec 16) : Nat := t.toNat / 2 ^ 14

/-- The context of a voice or tail tag: voice ID, or 8,192 plus the tail ID. -/
def tagCtx (t : BitVec 16) : Nat := if tagKind t = 1 then 8192 + t.toNat % 256 else t.toNat % 8192

/-- The owner of a task: the owner of its part, or of its entry (R366). -/
def State.tagOwner (s : State) (t : BitVec 16) (part : Nat) : Nat :=
  if tagKind t = 2 then s.taskOwner (t.toNat % 256) else s.rf (Reg.VAL_PART_OWNER part) 31 30

/-- allowed of R367, for a contribution of block k. -/
def State.laneAllowed (s : State) (tag : BitVec 16) (part k b : Nat) : Bool :=
  let own := s.tagOwner tag part
  let e := tag.toNat % 256
  decide (own ≠ 0) && decide (s.busOwner k b = own) &&
    (if tagKind tag = 2 then s.taskP1 e && decide (s.taskRank k e < s.busRank k b)
     else decide (s.busRank k b = 0))

/-- The epoch of block k: `e`, or one of the epochs before it. -/
def epochAt (k : Nat) : BitVec 8 → List (Nat × BitVec 8) → BitVec 8
  | e, [] => e
  | e, p :: l => if k < p.1 then epochAt k p.2 l else e

/-- The placement epoch of a context for a block (R46, R325). -/
def State.epochFor (s : State) (x k : Nat) : BitVec 8 := epochAt k (s.ctx x).epoch (s.ctx x).past

/-- The strobe at which a contribution's stage closes has been processed (R44, R375). -/
def State.stageClosed (s : State) (tag : BitVec 16) (k : Nat) : Bool :=
  if tagKind tag = 2 then
    s.taskP1 (tag.toNat % 256) && decide (s.p1Close k (tag.toNat % 256) ≤ s.frame)
  else decide (s.dl k 0 ≤ s.frame)

/-- Adds the lanes that R367 allows and counts the others as rule breaks. -/
def State.addLanes (s : State) (x : Contribution) : State :=
  x.lanes.foldl (fun t l =>
    if t.laneAllowed x.tag x.part x.blk l.1 then t.addLane x.blk l.1 l.2
    else (t.count (Reg.COL_CNT 2)).colFlag 2) s

/-- accept of R366. -/
def State.acceptContribution (s : State) (x : Contribution) : State :=
  if tagKind x.tag = 3 then s
  else
    let key := if tagKind x.tag = 2 then 16384 + x.tag.toNat % 256 else tagCtx x.tag
    if tagKind x.tag ≠ 2 ∧ (x.epoch ≠ s.epochFor key x.blk ∨ s.col.accepted.contains (key, x.blk) = true) then
      (s.count (Reg.COL_CNT 1)).colFlag 1
    else if s.stageClosed x.tag x.blk then
      ((s.count (Reg.COL_CNT 0)).colFlag 0).det 3
    else
      let t := { s with col := { s.col with accepted := (key, x.blk) :: s.col.accepted } }
      let t := if tagKind x.tag = 0 then
          { t with col := { t.col with
              kept := tput (0, []) t.col.kept key (x.blk, x.lanes.map fun l => (l.1, l.2.getD 15 0)) } }
        else t
      t.addLanes x

/-! ### Cut ramps (R138, R382) -/

/-- The ramp the collector applies in place of a victim cut for block k. It takes the place of what the victim fed in the
block before (R138). -/
def State.cutRamp (s : State) (v part k : Nat) : State :=
  let e := tget (0, []) s.col.kept v
  if e.1 + 1 = k then
    e.2.foldl (fun t l =>
      if t.laneAllowed (BitVec.ofNat 16 v) part k l.1 then
        iter (fun j t => t.addBus k l.1 j (rnd ((3 - (j : Int)) * l.2.toInt) 2)) 0 4 t
      else t) s
  else s

/-- A victim is cut for block k: its ramp is made now, or as that block opens (R138, R382). -/
def State.cutFor (s : State) (v part k : Nat) : State :=
  if k ≤ s.block then s.cutRamp v part k else { s with col := { s.col with cuts := (v, part, k) :: s.col.cuts } }

/-- The ramps of the cuts made for block k before it opened. -/
def State.cutsOpen (s : State) (k : Nat) : State :=
  let due := s.col.cuts.filter fun c => decide (c.2.2 ≤ k)
  let s := { s with col := { s.col with cuts := s.col.cuts.filter fun c => decide (k < c.2.2) } }
  due.foldl (fun t c => t.cutRamp c.1 c.2.1 k) s

/-! ### Closing (R374 to R377) -/

/-- The tasks of core n that have not ended: queued, running and saved. One whose contribution the collector has accepted
has ended (R365, R374). -/
def Core.tasks (c : Core) : List Task :=
  c.list ++ (match c.run with
    | some r => if r.delivered then [] else [r.task]
    | none => []) ++ c.saved.map (·.task)

/-- A P1 task of block k with rank below r has neither ended nor been dropped. -/
def State.p1Below (s : State) (k r : Nat) : Bool :=
  s.cores.any fun e => e.2.tasks.any fun t =>
    decide (t.level = 1) && decide (t.blk = k) && decide (s.taskRank k (t.tag.toNat % 256) < r)

/-- The address of a fixed task's region on its core. -/
def State.taskRegion (s : State) (t : Nat) : Nat :=
  lmBase (s.taskVe t) + s.rf (Reg.PUP_TASK_MEM t) 10 0 * 64

/-- The address of a fixed task's input area: the top 256 B of its region (R306). DESIGN CHOICE, unsafe: that of a region of
less than 256 B reaches below the region's base, and its inputs are written there (log entry 62). -/
def State.inputArea (s : State) (t : Nat) : Nat :=
  s.taskRegion t + s.rf (Reg.PUP_TASK_MEM t) 26 16 * 64 - 256

/-- Writes input i of a P1 task for block k: the bus as Q1.31, or zero where the owners differ (R377). -/
def State.writeInput (k t i : Nat) (s : State) : State :=
  let b := s.taskIn t i
  let ok := decide (i < s.taskNin t) && decide (s.busOwner k b = s.taskOwner t)
  iter (fun j u =>
    u.setWord (u.inputArea t + 64 * i + 4 * j)
      (if ok then wordI (readForm 32 (u.bus k b j)) else 0)) 0 16 s

/-- Writes the input area of a P1 task and reports its inputs closed (R377). -/
def State.reportInputs (k : Nat) (s : State) (t : Nat) : State :=
  let s := iter (State.writeInput k t) 0 4 s
  let n := s.taskVe t
  let c := s.core n
  s.setCore n { c with list := c.list.map fun x =>
    if x.level = 1 ∧ x.blk = k ∧ x.tag.toNat % 256 = t then { x with inputsIn := true } else x }

/-- The ranks of block k closed so far. -/
def State.closedRanks (s : State) (k : Nat) : Nat := tget 0 s.col.closed k

/-- Closes the next rank of block k and reports the tasks whose inputs have now closed (R374, R377). -/
def State.closeRank (s : State) (k : Nat) : State :=
  let r := s.closedRanks k
  let t := { s with col := { s.col with closed := tput 0 s.col.closed k (r + 1) } }
  let tasks := t.cores.flatMap fun e => e.2.list.filterMap fun x =>
    if x.level = 1 ∧ x.blk = k ∧ t.taskRank k (x.tag.toNat % 256) = r then some (x.tag.toNat % 256) else none
  tasks.foldl (State.reportInputs k) t

/-- Closes, in ascending order, the ranks of block k that are due at the present strobe or that nothing can
still feed (R374). -/
def State.closeDue (k : Nat) : Nat → State → State
  | 0, s => s
  | fuel + 1, s =>
    let r := s.closedRanks k
    if s.rmax < r then s
    else if s.dl k r ≤ s.frame ∨ (1 ≤ r ∧ s.p1Below k r = false) then
      State.closeDue k fuel (s.closeRank k)
    else s

/-- Closes what is due of the blocks whose bus stages may be open. -/
def State.closeBuses (s : State) : State :=
  iter (fun i t => if i ≤ t.block ∧ t.now.isSome then State.closeDue (t.block - i) 9 t else t) 0 6 s

/-- The voice stage of block k opens: its sums are zero, bus settings are taken, and the held input terms and the ramps of the
cuts made for it are added (R368, R378, R382, R390). -/
def State.openBlock (s : State) (k : Nat) : State :=
  let set := (s.listed (Reg.COL_BUS 0) 256 4).foldl
    (fun t e => tput 0 t (k * 256 + e.1) e.2) s.col.settings
  let s := { s with col := { s.col with
    acc := s.col.acc.filter fun e => decide (e.1 / 4096 ≠ k), settings := set, opened := some k } }
  let due := s.col.inputs.filter fun e => decide (e.1 / 16 ≤ k)
  let s := { s with col := { s.col with inputs := s.col.inputs.filter fun e => decide (k < e.1 / 16) } }
  (due.foldl (fun t e =>
    if e.2.2.1 ≠ 0 ∧ t.busOwner (e.1 / 16) e.2.1 = e.2.2.1 then
      t.addBus (e.1 / 16) e.2.1 (e.1 % 16) e.2.2.2
    else t) s).cutsOpen k

/-- Drops what belongs to blocks that have left the pipeline. -/
def State.retireBlocks (s : State) : State :=
  let k := s.block - 8
  { s with col := { s.col with
      acc := s.col.acc.filter (fun e => decide (k * 4096 ≤ e.1))
      settings := s.col.settings.filter (fun e => decide (k * 256 ≤ e.1))
      closed := s.col.closed.filter (fun e => decide (k ≤ e.1))
      accepted := s.col.accepted.filter (fun e => decide (k ≤ e.2)) } }

/-! ### Read-out (R383, R389, R391 to R396) -/

/-- The OUT_MAP word of destination j. -/
def State.outMap (s : State) (j : Nat) : Word :=
  if 72 ≤ j then s.reg (Reg.OUT_MAP_DAC (j - 72)) else s.reg (Reg.OUT_MAP j)

/-- Bits of a TDM width code: 16, 24 or 32 (OUT_TDM_CFG.SLOTW, DATAW). -/
def widthOf (code : Nat) : Nat :=
  match code with
  | 0 => 16
  | 1 => 24
  | _ => 32

/-- The width of the form in which destination j is read out (R383). -/
def State.destWidth (s : State) (j : Nat) : Nat :=
  if j < 64 then widthOf (s.rf (Reg.OUT_TDM_CFG (j / 16)) 23 22)
  else if j < 66 then 24
  else 32

/-- The value of destination j in the read-out of the strobe of frame F (R27, R383). -/
def State.destFrame (s : State) (j : Nat) : Word :=
  let m := s.outMap j
  let f := s.frame - 16 * s.depth
  if bit m 31 = true ∧ 16 * s.depth ≤ s.frame then
    wordI (readForm (s.destWidth j) (s.bus (f / 16) (fld m 7 0) (f % 16)))
  else 0

/-- The destinations of OUT_MAP. -/
def destinations : List Nat := List.range 66 ++ (List.range 8).map (· + 72)

/-- Channel-status bit n of a transmitted frame (R392). -/
def State.csBit (s : State) (n : Nat) : Bool :=
  let b012 := s.col.csNow.toNat / 4 % 64 * 4 + s.col.csNow.toNat / 256 % 65536 * 256
  let b3 := match s.rf Reg.MCK_CTRL 3 2 with
    | 0 => 0
    | 1 => 2
    | 2 => 8
    | _ => 0xA
  decide ((b012 + b3 * 2 ^ 24 + 0x0B * 2 ^ 32) / 2 ^ n % 2 = 1)

/-- An IEC 60958 subframe: sample in time slots 4 to 27, validity, user 0, channel status, even parity. -/
def subframe (sample : Word) (v c : Bool) : Word :=
  let w := (sample &&& 0x00FFFFFF) <<< 4
  let w := w ||| (if v then onebit 28 else 0) ||| (if c then onebit 30 else 0)
  let ones := sumOf (fun i => b2n (bit w i)) (List.range 32)
  if ones % 2 = 1 then w ||| onebit 31 else w

/-- The S/PDIF transmitter's frame of this strobe carries the frame read out at the previous strobe (R391). -/
def State.spdifTx (s : State) : State :=
  if s.rb Reg.OUT_SPDIF_TX 31 then
    let v := s.col.sentInvalid
    let c := s.csBit s.col.spdifPos
    let w (j : Nat) : Word := if v then 0 else tget 0 s.col.sent j
    { s with col := { s.col with
        spdifOut := (subframe (w 64) v c, subframe (w 65) v c)
        spdifPos := (s.col.spdifPos + 1) % 192 } }
  else { s with col := { s.col with spdifOut := (0, 0) } }

/-- Frames of a mute ramp that starts now: 2 ms, rounded half up (R445). -/
def State.muteFrames (s : State) : Nat := (2 * s.fs + 500) / 1000

/-- The mute ramp's gain for the present frame, Q1.31, or 2^31 for no mute (R445). -/
def State.muteGain (s : State) : Nat :=
  match s.mute with
  | none => 2 ^ 31
  | some (n, len) => if n < len then ((len - 1 - n) * 2 ^ 31 + len / 2) / len else 0

/-- The value that destination j sends: digital outputs follow the mute ramp (R623). -/
def State.sentFrame (s : State) (j : Nat) : Word :=
  if j < 66 then wordI (rnd ((s.destFrame j).toInt * s.muteGain) 31) else s.destFrame j

/-- The read-out at a strobe: every destination takes its bus frame, or an invalid frame is counted
(R383, R395, R396). -/
def State.readOut (s : State) : State :=
  let inv := decide (s.frame < s.col.invalidTo)
  let vals := destinations.foldl (fun t j => tput 0 t j (s.sentFrame j)) []
  let s := { s with col := { s.col with
      sent := s.col.readout, sentInvalid := s.col.readoutInvalid
      readout := vals, readoutInvalid := inv } }
  let s := s.spdifTx
  if inv then ((s.count (Reg.COL_CNT 3)).colFlag 3).count (Reg.MCK_CNT 2) else s

/-! ### Ports and inputs (R385 to R390, R394) -/

/-- Adds an input term to its bus frame, or holds it until the frame's block opens (R389, R390). -/
def State.inputTerm (s : State) (i f : Nat) (x : Int) : State :=
  let e := s.reg (Reg.COL_IN i)
  if bit e 31 = false then s
  else
    let b := fld e 7 0
    let own := s.rf (Reg.COL_BUS b) 31 30
    match s.col.opened with
    | some k =>
      if f / 16 ≤ k then
        if own ≠ 0 ∧ s.busOwner (f / 16) b = own then s.addBus (f / 16) b (f % 16) x else s
      else { s with col := { s.col with inputs := s.col.inputs ++ [(f, b, own, x)] } }
    | none => { s with col := { s.col with inputs := s.col.inputs ++ [(f, b, own, x)] } }

/-- Slots of a TDM port frame. -/
def State.tdmSlots (s : State) (n : Nat) : Nat := 2 ^ (s.rf (Reg.OUT_TDM_CFG n) 27 26 + 1)

/-- BCLK periods of a slot of TDM port n. -/
def State.tdmSlotBits (s : State) (n : Nat) : Nat := widthOf (s.rf (Reg.OUT_TDM_CFG n) 25 24)

/-- BCLK periods from the FS edge that opens a port frame to the first bit of slot 0 (R385). -/
def tdmDelay (cfg : Word) : Nat :=
  match fld cfg 29 28 with
  | 0 => 1
  | 1 => 0
  | _ => fld cfg 21 21

/-- FS in each BCLK period of a port frame of `slots` slots of `w` bits (R385). -/
def tdmFs (cfg : Word) (slots w : Nat) : List Bool :=
  match fld cfg 29 28 with
  | 0 => List.replicate w false ++ List.replicate w true
  | 1 => List.replicate w true ++ List.replicate w false
  | _ => true :: List.replicate (slots * w - 1) false

/-- The bits of slots of `w` bits, MSB first, without gaps (R385, R386). -/
def slotStream (w : Nat) (slots : List Word) : List Bool :=
  slots.flatMap fun x => (List.range w).map fun j => x.getLsbD (31 - j)

/-- What the port drives: with a data delay, the frame's first period still carries the last bit of the frame before. -/
def State.tdmDrives (s : State) (n : Nat) (slots : List Word) : TdmFrame :=
  let cfg := s.reg (Reg.OUT_TDM_CFG n)
  let w := s.tdmSlotBits n
  let d := tdmDelay cfg
  let before := slotStream w (tget {} s.col.tdmOut n).slots
  let all := slotStream w slots
  { slots := slots
    fs := if bit cfg 30 then [] else tdmFs cfg slots.length w
    dout := (if d = 0 then [] else [before.getLastD false]) ++ all.take (all.length - d) }

/-- The word of slot i among the DI samples of a port frame, MSB at bit 31 (R385, R386). -/
def State.tdmSlotIn (s : State) (n : Nat) (di : List Bool) (i : Nat) : Word :=
  let w := s.tdmSlotBits n
  let b := (di.drop (tdmDelay (s.reg (Reg.OUT_TDM_CFG n)) + i * w)).take w
  BitVec.ofNat 32 ((b.foldl (fun t x => 2 * t + b2n x) 0) * 2 ^ (32 - b.length))

/-- The data word of a received slot: sign bit at bit 31, zero below DATAW bits (R386, R390). -/
def slotWord (dataw : Nat) (x : Word) : Word := x &&& BitVec.ofNat 32 (2 ^ 32 - 2 ^ (32 - dataw))

/-- The slot bits sent for a destination value of `dataw` bits (R386). -/
def slotBits (dataw : Nat) (x : Word) : Word := x <<< (32 - dataw)

/-- A port frame of TDM port n (R385 to R390, R396). In SLEEP the collector is gated and takes no input (R613). -/
def State.tdmFrame (s : State) (n : Nat) (di : List Bool) : State :=
  let cfg := s.reg (Reg.OUT_TDM_CFG n)
  let slots := s.tdmSlots n
  let w := widthOf (fld cfg 23 22)
  if bit cfg 31 = false then
    { s with col := { s.col with tdmOut := tput {} s.col.tdmOut n {} } }
  else if n = 0 ∧ bit cfg 30 = true ∧ s.inForce ≠ some 2 then
    { s with col := { s.col with
        tdmOut := tput {} s.col.tdmOut n (s.tdmDrives n (List.replicate slots 0)) } }.count Reg.OUT_CNT_RXZERO
  else
    let out := (List.range slots).map fun i =>
      if s.col.sentInvalid then 0 else slotBits w (tget 0 s.col.sent (16 * n + i))
    let s := { s with col := { s.col with tdmOut := tput {} s.col.tdmOut n (s.tdmDrives n out) } }
    if s.col.readoutInvalid || !s.engineRuns then s
    else
      iter (fun i t => t.inputTerm (16 * n + i) (t.frame + 16) (slotWord w (s.tdmSlotIn n di i)).toInt) 0 slots s

/-- The rate code of OUT_SPDIF_RX that equals the engine rate. -/
def State.spdifRateCode (s : State) : Nat := s.rf Reg.MCK_CTRL 3 2 + 1

/-- A received S/PDIF frame meets R394. -/
def State.spdifUsable (s : State) (f : SpdifFrame) : Bool :=
  let r := s.reg Reg.OUT_SPDIF_RX
  bit r 31 && bit r 0 && decide (fld r 7 4 = s.spdifRateCode) && decide (s.inForce = some 1) &&
    !bit f.cs 1 && f.parityOk && (!f.validity || bit r 30)

/-- A 24-bit word as a Q1.31 term (R390). -/
def term24 (x : BitVec 24) : Int := x.toInt * 256

/-- A received S/PDIF frame completes (R394, R396): one that meets a receiver that does not run is unusable too, and leaves
its channel status unread. In SLEEP the collector is gated and takes no input (R613). -/
def State.spdifRx (s : State) (f : SpdifFrame) : State :=
  let u := s.spdifUsable f
  let t := if s.rb Reg.OUT_SPDIF_RX 31 then
      (s.setReg Reg.OUT_SPDIF_RXCS f.cs).setRf Reg.OUT_SPDIF_RX 3 3 (b2n (bit f.cs 1)) else s
  let t := t.setRf Reg.OUT_SPDIF_RX 2 2 (b2n u)
  if u then
    if t.col.readoutInvalid || !t.engineRuns then t
    else (t.inputTerm 64 (t.frame + 15) (term24 f.left)).inputTerm 65 (t.frame + 15) (term24 f.right)
  else t.count Reg.OUT_CNT_RXZERO

end Sys2Proof.Machine
end

