-- ==== Sys2Proof/Machine/Operands.lean ====
section
/-! DEFINITION. Operand forms of GVIS: the names of the registers, windows and rotation (R144 to R149), the
addressing modes (R185), the condition codes (R197), and the fields of an encoding. -/

namespace Sys2Proof.Machine

/-! ### Fields of an encoding -/

/-- Bits [hi:lo] of an encoding. -/
def bf (w hi lo : Nat) : Nat := w / 2 ^ lo % 2 ^ (hi - lo + 1)

/-- Sign extension of an n-bit field to an integer. -/
def sextI (n v : Nat) : Int := if v < 2 ^ (n - 1) then v else (v : Int) - 2 ^ n

/-- Sign extension of an n-bit field to a word. -/
def sextW (n v : Nat) : Word := wordI (sextI n v)

/-! ### General registers (R144 to R147) -/

/-- SR.RCV: recovery mode. -/
def Arch.rcv (a : Arch) : Bool := bit a.sr 22

/-- The physical register that Gn names: 0 to 15 global, 16 + 16 w + r windowed (R146, R147). -/
def Arch.phys (a : Arch) (n : Nat) : Nat :=
  if n < 16 then n
  else 16 + 16 * a.wp + (if a.rcv then (n - 16 + a.rrb) % 16 else n - 16)

/-- A physical general register. -/
def Arch.gp (a : Arch) (p : Nat) : Word := if p < 16 then tget 0 a.g p else tget 0 a.win (p - 16)

/-- Writes a physical general register. -/
def Arch.setGp (a : Arch) (p : Nat) (v : Word) : Arch :=
  if p < 16 then { a with g := tput 0 a.g p v } else { a with win := tput 0 a.win (p - 16) v }

/-- Gn. -/
def Arch.gr (a : Arch) (n : Nat) : Word := a.gp (a.phys n)

/-- The physical registers of Zk, real part first (R145). -/
def Arch.zphys (a : Arch) (k : Nat) : List Nat := [a.phys (2 * k), a.phys (2 * k + 1)]

/-- Zk.re as an integer. -/
def Arch.zre (a : Arch) (k : Nat) : Int := (a.gr (2 * k)).toInt

/-- Zk.im as an integer. -/
def Arch.zim (a : Arch) (k : Nat) : Int := (a.gr (2 * k + 1)).toInt

/-- Zk as the u64 value G(2k + 1):G(2k). -/
def Arch.z64 (a : Arch) (k : Nat) : Nat := (a.gr (2 * k + 1)).toNat * 2 ^ 32 + (a.gr (2 * k)).toNat

/-! ### Accumulators (R148) -/

/-- Half H of ACCk: 0 re, 1 im. -/
def Arch.accu (a : Arch) (k h : Nat) : Acc80 := tget 0 a.acc (2 * k + h)

/-- Writes half H of ACCk, by its key 2 k + H. -/
def Arch.setAcc (a : Arch) (key : Nat) (v : Acc80) : Arch := { a with acc := tput 0 a.acc key v }

/-! ### Pointers (R149, R239) -/

/-- The key of Xn, kind 0 P, 1 B, 2 L, 3 K: in a trap handler the names P7, B7, L7, K7 mean the trap set. -/
def Arch.pkey (a : Arch) (kind n : Nat) : Nat := if a.tm && n == 7 then 32 + kind else 8 * kind + n

/-- Xn. -/
def Arch.px (a : Arch) (kind n : Nat) : Word := tget 0 a.ptr (a.pkey kind n)

/-- Writes an address register by its key. -/
def Arch.setPtr (a : Arch) (key : Nat) (v : Word) : Arch := { a with ptr := tput 0 a.ptr key v }

/-- step of R185. -/
def Arch.step (a : Arch) (n : Nat) (p : Word) (d : Int) : Word :=
  let l := (a.px 2 n).toNat
  if l = 0 then wordI (p.toNat + d)
  else
    let b := (a.px 1 n).toNat
    let off : Int := (p.toNat : Int) - b + d
    wordI (b + off % l)

/-- Pn after an access of `size` bytes under mode M, none when M leaves it (R185). -/
def Arch.modeStep (a : Arch) (m n size : Nat) : Option Word :=
  let p := a.px 0 n
  match m with
  | 0 => none
  | 1 => some (a.step n p size)
  | 2 => some (a.step n p (a.px 3 n).toInt)
  | _ => some (p + a.px 3 n)

/-! ### SR (R150) -/

/-- SR as a program reads it. -/
def Arch.srWord (a : Arch) : Word := setFld (setFld (a.sr &&& 0x004000DF) 23 23 (b2n a.tm)) 21 19 a.loops.length

/-- The condition codes of R197 on the flags of a status word; none for 0xF. -/
def condHolds (sr : Word) (c : Nat) : Option Bool :=
  let z := bit sr 0
  let n := bit sr 1
  let cy := bit sr 2
  let v := bit sr 3
  match c with
  | 0x0 => some z
  | 0x1 => some (!z)
  | 0x2 => some cy
  | 0x3 => some (!cy)
  | 0x4 => some n
  | 0x5 => some (!n)
  | 0x6 => some v
  | 0x7 => some (!v)
  | 0x8 => some (cy && !z)
  | 0x9 => some (!cy || z)
  | 0xA => some (n == v)
  | 0xB => some (n != v)
  | 0xC => some (!z && n == v)
  | 0xD => some (z || n != v)
  | 0xE => some true
  | _ => none

/-! ### Trap registers (R238) -/

/-- The trap register of an MFTR or MTTR index. -/
def Arch.trapReg (a : Arch) (i : Nat) : Word :=
  match i with
  | 0 => a.tpc
  | 1 => a.tnpc
  | 2 => a.tsr
  | 3 => a.twp
  | 4 => a.tcause
  | _ => a.taddr

/-- Writes a trap register; reserved bits stay zero. -/
def Arch.setTrapReg (a : Arch) (i : Nat) (v : Word) : Arch :=
  match i with
  | 0 => { a with tpc := v &&& 0xFFF }
  | 1 => { a with tnpc := v &&& 0xFFF }
  | 2 => { a with tsr := v &&& 0x00F800DF }
  | 3 => { a with twp := v &&& 7 }
  | 4 => { a with tcause := v &&& 0xFF0000FF }
  | _ => { a with taddr := v }

end Sys2Proof.Machine
end

