-- ==== Sys2Proof/Machine/Flags.lean ====
section
/-! DEFINITION. Results and flags of GVIS arithmetic: saturation and wrapping (R156), the flags of additions,
subtractions and shifts (R184), redundant sign bits, and the update of SR (R150). -/

namespace Sys2Proof.Machine

/-- What an instruction does to the flags: none leaves a flag unchanged. -/
structure Flags where
  z  : Option Bool := none
  n  : Option Bool := none
  c  : Option Bool := none
  v  : Option Bool := none
  av : Option Bool := none
deriving DecidableEq, Repr

/-- Replaces bit i of a word when a value is given. -/
def optBit (i : Nat) (b : Option Bool) (w : Word) : Word :=
  match b with
  | some x => setFld w i i (b2n x)
  | none => w

/-- SR after the flags of an instruction: V sets SVS and AV sets AVS (R150, R156). -/
def Flags.apply (f : Flags) (sr : Word) : Word :=
  let w := optBit 0 f.z (optBit 1 f.n (optBit 2 f.c (optBit 3 f.v (optBit 4 f.av sr))))
  let w := if f.v = some true then w ||| 0x40 else w
  if f.av = some true then w ||| 0x80 else w

/-- fit32: the value, and whether it overflowed (R156). -/
def fit32 (r : Int) (s : Bool) : Word × Bool :=
  let o := decide (r < -2147483648) || decide (2147483647 < r)
  (if o && s then wordI (satS32 r) else wordI r, o)

/-- fit80: the value, and whether it overflowed (R156). -/
def fit80 (r : Int) (s : Bool) : Acc80 × Bool :=
  let lo : Int := -(2 ^ 79)
  let hi : Int := 2 ^ 79 - 1
  let o := decide (r < lo) || decide (hi < r)
  (BitVec.ofInt 80 (if o && s then clampI r lo hi else r), o)

/-- rsb32: bits below bit 31 equal to bit 31. -/
def rsb (bits : Nat) (x : Int) : Nat :=
  let m := if x < 0 then (-x - 1).toNat else x.toNat
  (List.range (bits - 1)).foldl (fun n i => if m < 2 ^ (bits - 2 - i) then i + 1 else n) 0

/-- N and Z of a result. -/
def nz (w : Word) : Flags := { z := some (decide (w = 0)), n := some (bit w 31) }

/-- Ga + Gb, with its flags (R184). -/
def addFx (a b : Word) (s : Bool) : Word × Flags :=
  let r := fit32 (a.toInt + b.toInt) s
  (r.1, { nz r.1 with c := some (decide (2 ^ 32 ≤ a.toNat + b.toNat)), v := some r.2 })

/-- Ga − Gb, with its flags (R184). -/
def subFx (a b : Word) (s : Bool) : Word × Flags :=
  let r := fit32 (a.toInt - b.toInt) s
  (r.1, { nz r.1 with c := some (decide (b.toNat ≤ a.toNat)), v := some r.2 })

/-- A result whose C and V are 0. -/
def plainFx (w : Word) : Word × Flags := (w, { nz w with c := some false, v := some false })

/-- Shift left by n (R184). -/
def shlFx (a : Word) (n : Nat) (s : Bool) : Word × Flags :=
  let r := fit32 (a.toInt * 2 ^ n) s
  (r.1, { nz r.1 with c := some (decide (0 < n) && bit a (32 - n)), v := some r.2 })

/-- Shifts right by n: fn 1 ASR, 2 LSR, 3 ASRR (R184). -/
def shrFx (fn : Nat) (a : Word) (n : Nat) : Word × Flags :=
  let w : Word := match fn with
    | 1 => wordI (a.toInt / 2 ^ n)
    | 2 => a >>> n
    | _ => wordI (rnd a.toInt n)
  (w, { nz w with c := some (decide (0 < n) && bit a (n - 1)), v := some false })

/-- The read-out of an accumulator half with exponent e (R158, R182). -/
def readOut80 (x : Acc80) (e : Int) (s : Bool) : Word × Bool := fit32 (rnd x.toInt (32 - e).toNat) s

/-- The complex product of R157 in Q17.63, Zb conjugated when `cj` (R181). -/
def cmul (are aim bre bim : Int) (cj : Bool) : Int × Int :=
  let bi := if cj then -bim else bim
  (2 * (are * bre - aim * bi), 2 * (are * bi + aim * bre))

/-- OP of CMA and MAC: add, subtract, set, set negated. -/
def accOp (op : Nat) (acc p : Int) : Int :=
  match op with
  | 0 => acc + p
  | 1 => acc - p
  | 2 => p
  | _ => -p

/-- NORM of R183 for one half: the half and f2. -/
def normHalf (x f2 : Int) : Word × Bool := fit32 (rnd (x * f2) 63) true

end Sys2Proof.Machine
end

