-- ==== Sys2Proof/Machine/Xslot.lean ====
section
/-! DEFINITION. The X slot: arithmetic, logic, read-out and the immediate class (R179 to R184). Each instruction
is a function from the registers as they stand before the bundle to its effect. -/

namespace Sys2Proof.Machine

/-- The effect of one slot, computed from the registers before the bundle (R172). -/
structure Fx where
  /-- The encoding is undefined, or a check of R209 fails: illegal-instruction. -/
  bad   : Bool := false
  /-- Physical general registers read. -/
  reads : List Nat := []
  /-- Physical general registers written, and their values. -/
  g     : List (Nat × Word) := []
  /-- Accumulator halves written, by key 2 k + H. -/
  acc   : List (Nat × Acc80) := []
  /-- Address registers written, by their key. -/
  ptr   : List (Nat × Word) := []
  flags : Flags := {}
  /-- The instruction sets flags (R201). -/
  setsFlags : Bool := false
deriving DecidableEq, Repr

/-- An undefined encoding. -/
def Fx.illegal : Fx := { bad := true }

/-- An effect kept only when the encoding's conditions hold (R177). -/
def Fx.guard (ok : Bool) (f : Fx) : Fx := if ok then f else Fx.illegal

/-- Writes Gd, with flags. -/
def fxG (a : Arch) (reads : List Nat) (d : Nat) (r : Word × Flags) : Fx :=
  { reads := reads.map a.phys, g := [(a.phys d, r.1)], flags := r.2, setsFlags := true }

/-- Writes Gd, without flags. -/
def fxGq (a : Arch) (reads : List Nat) (d : Nat) (w : Word) : Fx :=
  { reads := reads.map a.phys, g := [(a.phys d, w)] }

/-- The G registers of Zk. -/
def zregs (k : Nat) : List Nat := [2 * k, 2 * k + 1]

/-- Writes Zd with V from both halves (R179). -/
def fxZ (a : Arch) (reads : List Nat) (d : Nat) (re im : Word × Bool) : Fx :=
  { reads := reads.map a.phys, g := [(a.phys (2 * d), re.1), (a.phys (2 * d + 1), im.1)],
    flags := { v := some (re.2 || im.2) }, setsFlags := true }

/-- Writes both halves of ACCk with AV from both. -/
def fxAcc2 (a : Arch) (reads : List Nat) (k : Nat) (re im : Acc80 × Bool) : Fx :=
  { reads := reads.map a.phys, acc := [(2 * k, re.1), (2 * k + 1, im.1)],
    flags := { av := some (re.2 || im.2) }, setsFlags := true }

/-- CMA (R157, R179). -/
def xCma (a : Arch) (w : Nat) : Fx :=
  let k := bf w 17 16
  let za := bf w 15 12
  let zb := bf w 11 8
  let s := decide (bf w 7 7 = 1)
  let op := bf w 5 4
  let p := cmul (a.zre za) (a.zim za) (a.zre zb) (a.zim zb) (decide (bf w 6 6 = 1))
  Fx.guard (bf w 3 0 == 0)
    (fxAcc2 a (zregs za ++ zregs zb) k
      (fit80 (accOp op (a.accu k 0).toInt p.1) s) (fit80 (accOp op (a.accu k 1).toInt p.2) s))

/-- MAC (R179). -/
def xMac (a : Arch) (w : Nat) : Fx :=
  let k := bf w 17 16
  let h := bf w 15 15
  let ga := bf w 14 10
  let gb := bf w 9 5
  let p := 2 * ((a.gr ga).toInt * (a.gr gb).toInt)
  let r := fit80 (accOp (bf w 3 2) (a.accu k h).toInt p) (decide (bf w 4 4 = 1))
  Fx.guard (bf w 1 0 == 0)
    { reads := [a.phys ga, a.phys gb], acc := [(2 * k + h, r.1)], flags := { av := some r.2 }, setsFlags := true }

/-- The exponent of a read-out: E, or the low 5 bits of the register E names (R182). -/
def readExp (a : Arch) (rg : Nat) (e : Nat) : Int :=
  sextI 5 (if rg = 0 then e else (a.gr e).toNat % 32)

/-- RDA (R182). -/
def xRda (a : Arch) (w : Nat) : Fx :=
  let e := bf w 7 3
  let rg := bf w 8 8
  let r := readOut80 (a.accu (bf w 12 11) (bf w 10 10)) (readExp a rg e) (decide (bf w 9 9 = 1))
  Fx.guard (bf w 2 0 == 0)
    (fxG a (if rg = 0 then [] else [e]) (bf w 17 13) (r.1, { nz r.1 with v := some r.2 }))

/-- RDZ (R182). -/
def xRdz (a : Arch) (w : Nat) : Fx :=
  let k := bf w 13 12
  let s := decide (bf w 11 11 = 1)
  let rg := bf w 10 10
  let e := bf w 9 5
  Fx.guard (bf w 4 0 == 0)
    (fxZ a (if rg = 0 then [] else [e]) (bf w 17 14)
      (readOut80 (a.accu k 0) (readExp a rg e) s) (readOut80 (a.accu k 1) (readExp a rg e) s))

/-- ACM (R179). -/
def xAcm (a : Arch) (w : Nat) : Fx :=
  let k := bf w 17 16
  let src := bf w 13 9
  let z := bf w 12 9
  let s := decide (bf w 8 8 = 1)
  let up (x : Int) : Int := x * 2 ^ 32
  Fx.guard (bf w 7 0 == 0)
    (match bf w 15 14 with
     | 0 => Fx.guard (src == 0) { acc := [(2 * k, 0), (2 * k + 1, 0)] }
     | 1 => Fx.guard (bf w 13 13 == 0)
        { reads := a.zphys z,
          acc := [(2 * k, BitVec.ofInt 80 (up (a.zre z))), (2 * k + 1, BitVec.ofInt 80 (up (a.zim z)))] }
     | 2 => Fx.guard (bf w 13 13 == 0)
        (fxAcc2 a (zregs z) k (fit80 ((a.accu k 0).toInt + up (a.zre z)) s)
          (fit80 ((a.accu k 1).toInt + up (a.zim z)) s))
     | _ =>
        let r := fit80 ((a.accu k 0).toInt + up (a.gr src).toInt) s
        { reads := [a.phys src], acc := [(2 * k, r.1)], flags := { av := some r.2 }, setsFlags := true })

/-- NORM (R183). -/
def xNorm (a : Arch) (w : Nat) : Fx :=
  let z := bf w 13 10
  let m := a.zre z * a.zre z + a.zim z * a.zim z
  let f2 := 3 * 2 ^ 62 - m
  Fx.guard (bf w 9 0 == 0) (fxZ a (zregs z) (bf w 17 14) (normHalf (a.zre z) f2) (normHalf (a.zim z) f2))

/-- EXP (R179). -/
def xExp (a : Arch) (w : Nat) : Fx :=
  let d := bf w 17 13
  let m := bf w 12 11
  let src := bf w 10 6
  let z := bf w 9 6
  let one := rsb 32 (a.gr src).toInt
  let two := min (rsb 32 (a.zre z)) (rsb 32 (a.zim z))
  let old := (a.gr d).toInt
  Fx.guard (bf w 5 0 == 0 && (m < 2 || bf w 10 10 == 0))
    (match m with
     | 0 => fxGq a [src] d (wordI one)
     | 1 => fxGq a [src, d] d (wordI (min old one))
     | 2 => fxGq a (zregs z) d (wordI two)
     | _ => fxGq a (d :: zregs z) d (wordI (min old two)))

/-- EXPA (R179). -/
def xExpa (a : Arch) (w : Nat) : Fx :=
  let k := bf w 12 11
  let m : Int := min (rsb 80 (a.accu k 0).toInt) (rsb 80 (a.accu k 1).toInt)
  Fx.guard (bf w 10 0 == 0) (fxGq a [] (bf w 17 13) (wordI (clampI (m - 16) (-16) 15)))

/-- MULQ (R179). -/
def xMulq (a : Arch) (w : Nat) : Fx :=
  let ga := bf w 12 8
  let gb := bf w 7 3
  let r := fit32 (rnd ((a.gr ga).toInt * (a.gr gb).toInt) 31) (decide (bf w 2 2 = 1))
  Fx.guard (bf w 1 0 == 0) (fxG a [ga, gb] (bf w 17 13) (r.1, { nz r.1 with v := some r.2 }))

/-- CMULQ (R179). -/
def xCmulq (a : Arch) (w : Nat) : Fx :=
  let za := bf w 13 10
  let zb := bf w 9 6
  let s := decide (bf w 5 5 = 1)
  let p := cmul (a.zre za) (a.zim za) (a.zre zb) (a.zim zb) (decide (bf w 4 4 = 1))
  Fx.guard (bf w 3 0 == 0)
    (fxZ a (zregs za ++ zregs zb) (bf w 17 14) (fit32 (rnd p.1 32) s) (fit32 (rnd p.2 32) s))

/-- CADD (R179). -/
def xCadd (a : Arch) (w : Nat) : Fx :=
  let za := bf w 13 10
  let zb := bf w 9 6
  let d := bf w 17 14
  let s := decide (bf w 5 5 = 1)
  Fx.guard (bf w 2 0 == 0)
    (match bf w 4 3 with
     | 0 => fxZ a (zregs za ++ zregs zb) d (fit32 (a.zre za + a.zre zb) s) (fit32 (a.zim za + a.zim zb) s)
     | 1 => fxZ a (zregs za ++ zregs zb) d (fit32 (a.zre za - a.zre zb) s) (fit32 (a.zim za - a.zim zb) s)
     | 2 => Fx.guard (zb == 0) (fxZ a (zregs za) d (fit32 (a.zre za) s) (fit32 (a.zim za) s))
     | _ => Fx.guard (zb == 0) (fxZ a (zregs za) d (fit32 (a.zre za) s) (fit32 (-a.zim za) s)))

/-- ALUA (R184). -/
def xAlua (a : Arch) (w : Nat) : Fx :=
  let d := bf w 17 13
  let ga := bf w 12 8
  let gb := bf w 7 3
  let x := a.gr ga
  let y := a.gr gb
  match bf w 2 0 with
  | 0 => fxG a [ga, gb] d (addFx x y false)
  | 1 => fxG a [ga, gb] d (addFx x y true)
  | 2 => fxG a [ga, gb] d (subFx x y false)
  | 3 => fxG a [ga, gb] d (subFx x y true)
  | 4 => fxG a [ga, gb] d (plainFx (if x.toInt ≤ y.toInt then x else y))
  | 5 => fxG a [ga, gb] d (plainFx (if x.toInt ≤ y.toInt then y else x))
  | 6 => Fx.guard (d == 0)
    { reads := [a.phys ga, a.phys gb], flags := (subFx x y false).2, setsFlags := true }
  | _ => Fx.illegal

/-- ALUB (R184). -/
def xAlub (a : Arch) (w : Nat) : Fx :=
  let d := bf w 17 13
  let ga := bf w 12 8
  let gb := bf w 7 3
  let x := a.gr ga
  let y := a.gr gb
  let n := y.toNat % 32
  fxG a [ga, gb] d
    (match bf w 2 0 with
     | 0 => plainFx (x &&& y)
     | 1 => plainFx (x ||| y)
     | 2 => plainFx (x ^^^ y)
     | 3 => plainFx (x &&& ~~~ y)
     | 4 => shlFx x n false
     | 5 => shrFx 1 x n
     | 6 => shrFx 2 x n
     | _ => shrFx 3 x n)

/-- SHI (R179, R184). -/
def xShi (a : Arch) (w : Nat) : Fx :=
  let src := bf w 12 8
  let fn := bf w 7 6
  let n := bf w 5 1
  let x := a.gr src
  Fx.guard (fn == 0 || bf w 0 0 == 0)
    (fxG a [src] (bf w 17 13) (if fn = 0 then shlFx x n (decide (bf w 0 0 = 1)) else shrFx fn x n))

/-- UNA (R179). -/
def xUna (a : Arch) (w : Nat) : Fx :=
  let src := bf w 12 8
  let d := bf w 17 13
  let x := a.gr src
  let num (r : Int) (s : Bool) : Fx :=
    let y := fit32 r s
    fxG a [src] d (y.1, { nz y.1 with c := some false, v := some y.2 })
  Fx.guard (bf w 4 0 == 0)
    (match bf w 7 5 with
     | 0 => fxG a [src] d (plainFx x)
     | 1 => num (-x.toInt) false
     | 2 => num (-x.toInt) true
     | 3 => num x.toInt.natAbs false
     | 4 => num x.toInt.natAbs true
     | 5 => fxG a [src] d (plainFx (~~~ x))
     | _ => Fx.illegal)

/-- ADD64 (R179). -/
def xAdd64 (a : Arch) (w : Nat) : Fx :=
  let za := bf w 13 10
  let zb := bf w 9 6
  let x : Int := a.z64 za
  let y : Int := a.z64 zb
  let r : Dword := BitVec.ofInt 64 (if bf w 5 5 = 1 then x - y else x + y)
  let d := bf w 17 14
  Fx.guard (bf w 4 0 == 0)
    { reads := a.zphys za ++ a.zphys zb,
      g := [(a.phys (2 * d), r.setWidth 32), (a.phys (2 * d + 1), (r >>> 32).setWidth 32)] }

/-- MVA (R179). -/
def xMva (a : Arch) (w : Nat) : Fx :=
  let src := bf w 12 8
  Fx.guard (bf w 7 0 == 0)
    { reads := [a.phys src], ptr := [(a.pkey (bf w 17 16) (bf w 15 13), a.gr src)] }

/-- MVG (R179). -/
def xMvg (a : Arch) (w : Nat) : Fx :=
  Fx.guard (bf w 7 0 == 0) (fxGq a [] (bf w 17 13) (a.px (bf w 12 11) (bf w 10 8)))

/-- ADDA (R185). -/
def xAdda (a : Arch) (w : Nat) : Fx :=
  let n := bf w 17 15
  let src := bf w 14 10
  Fx.guard (bf w 9 0 == 0)
    { reads := [a.phys src], ptr := [(a.pkey 0 n, a.step n (a.px 0 n) (a.gr src).toInt)] }

/-- CMOV (R179, R197). The register counts as written whether or not the condition holds. -/
def xCmov (a : Arch) (w : Nat) : Fx :=
  let d := bf w 17 13
  let src := bf w 12 8
  match condHolds a.sr (bf w 7 4) with
  | none => Fx.illegal
  | some c => Fx.guard (bf w 3 0 == 0) (fxGq a [src, d] d (if c then a.gr src else a.gr d))

/-- The immediate class, with the 24-bit immediate of the bundle (R180). -/
def xImm (a : Arch) (op w imm : Nat) : Fx :=
  let d := bf w 17 13
  let src := bf w 12 8
  let n := bf w 15 13
  match op with
  | 0x20 => Fx.guard (bf w 12 0 == 0) (fxGq a [] d (sextW 24 imm))
  | 0x21 => Fx.guard (bf w 12 0 == 0) (fxGq a [] d (BitVec.ofNat 32 (imm * 256)))
  | 0x22 => Fx.guard (bf w 7 0 == 0) (fxG a [src] d (addFx (a.gr src) (sextW 24 imm) false))
  | 0x23 => Fx.guard (bf w 12 0 == 0) { ptr := [(a.pkey (bf w 17 16) n, BitVec.ofNat 32 imm)] }
  | 0x24 =>
    let m := bf w 17 15
    Fx.guard (bf w 14 0 == 0) { ptr := [(a.pkey 0 m, a.step m (a.px 0 m) (sextI 24 imm))] }
  | 0x25 => Fx.guard (d == 0 && bf w 7 0 == 0)
    { reads := [a.phys src], flags := (subFx (a.gr src) (sextW 24 imm) false).2, setsFlags := true }
  | _ => Fx.illegal

/-- An opcode of the immediate class (R180). -/
def isImm (op : Nat) : Bool := decide (0x20 ≤ op) && decide (op ≤ 0x25)

/-- The X slot: 24 bits of encoding and, for the immediate class, the bundle's immediate (R179). -/
def xSlot (a : Arch) (w imm : Nat) : Fx :=
  match bf w 23 18 with
  | 0x00 => Fx.guard (bf w 17 0 == 0) {}
  | 0x01 => xCma a w
  | 0x02 => xMac a w
  | 0x03 => xRda a w
  | 0x04 => xRdz a w
  | 0x05 => xAcm a w
  | 0x06 => xNorm a w
  | 0x07 => xExp a w
  | 0x08 => xExpa a w
  | 0x09 => xMulq a w
  | 0x0A => xCmulq a w
  | 0x0B => xCadd a w
  | 0x0C => xAlua a w
  | 0x0D => xAlub a w
  | 0x0E => xShi a w
  | 0x0F => xUna a w
  | 0x10 => xAdd64 a w
  | 0x11 => xMva a w
  | 0x12 => xMvg a w
  | 0x13 => xAdda a w
  | 0x14 => xCmov a w
  | op => xImm a op w imm

end Sys2Proof.Machine
end

