-- ==== Sys2Proof/Machine/Slots.lean ====
section
/-! DEFINITION. The MA, MB and F slots and the long instruction: loads and stores with address update, parameter
reads, wave fetches, sends, branches, loops, window moves, status and trap registers (R185 to R206). -/

namespace Sys2Proof.Machine

/-! ### What a core's surroundings give its bundles -/

/-- The surroundings of the running program, taken from the state before the bundle. -/
structure Env where
  /-- A Stage Engine (R143). -/
  se   : Bool
  /-- PFR is available: a voice or a tail task (R189). -/
  pfrOk : Bool
  /-- Length of the running program in bundles, and its trap entry (R235). -/
  len  : Nat
  trap : Nat
  /-- The parameter frame's word (R188). -/
  pfr  : Nat → Word
  /-- The program may load, or store, here (R159, R163, R306, R399). -/
  loadOk  : Nat → Nat → Bool
  storeOk : Nat → Nat → Dword → Bool
  /-- The physical Wave Store address of a wave fetch's address, none when the fetch may not read it (R192, R350). -/
  wave : Nat → Option Nat
  /-- A fifth wave fetch waits for the oldest one (R207). -/
  fifth : Bool

/-! ### MA and MB -/

/-- Where a loaded value goes. -/
inductive Dst where
  | none
  | g (p : Nat)
  | z (re im : Nat)
  /-- The low or high word of an accumulator half, by its key (R187). -/
  | acc (key : Nat) (hi : Bool)
deriving DecidableEq, Repr

/-- A memory access of a slot. -/
structure MemAccess where
  store : Bool
  addr  : Nat
  size  : Nat
  data  : Dword := 0
  dst   : Dst := .none
deriving DecidableEq, Repr

/-- A wave fetch (R190, R191). -/
structure WaveFetch where
  d     : Nat
  fmt   : Nat
  interp : Bool
  len   : Nat
  /-- Table start as a byte address. -/
  base  : Nat
  i     : Nat
  f     : Nat
deriving DecidableEq, Repr

/-- The effect of a memory slot. -/
structure MemFx where
  fx     : Fx := {}
  /-- Registers that a load or a fetch will write: they count as written (R173, R194). -/
  claims : List Nat := []
  /-- Accumulator halves that a load will write. -/
  accClaims : List Nat := []
  access : Option MemAccess := none
  wf     : Option WaveFetch := none
  send   : Option (Nat × Word) := none
deriving DecidableEq, Repr

def MemFx.illegal : MemFx := { fx := Fx.illegal }
def MemFx.guard (ok : Bool) (f : MemFx) : MemFx := if ok then f else MemFx.illegal

/-- The pointer update of an access (R185): a write of Pn. -/
def ptrUpdate (a : Arch) (m n size : Nat) : List (Nat × Word) :=
  match a.modeStep m n size with
  | some p => [(a.pkey 0 n, p)]
  | none => []

/-- Sample bytes by FMT (R191). -/
def sampleBytes (fmt : Nat) : Nat :=
  match fmt with
  | 0 => 2
  | 1 => 4
  | 2 => 4
  | _ => 8

/-- WF (R190 to R193). -/
def waveSlot (a : Arch) (w : Nat) : MemFx :=
  let d := bf w 9 5
  let m := bf w 4 2
  let desc := (a.gr (4 * m + 2)).toNat
  let fmt := bf desc 31 30
  let ph := a.z64 (2 * m) + (a.gr (4 * m + 3)).toNat * 256
  let adv := decide (bf w 1 1 = 1)
  let dests := if 2 ≤ fmt ∧ d % 2 = 0 then [a.phys d, a.phys (d + 1)] else [a.phys d]
  MemFx.guard (bf w 0 0 == 0 && d / 4 != m)
    { fx := {
        reads := (List.range 4).map fun i => a.phys (4 * m + i)
        g := if adv then
            [(a.phys (4 * m), BitVec.ofNat 32 ph), (a.phys (4 * m + 1), BitVec.ofNat 32 (ph / 2 ^ 32))]
          else [] }
      claims := dests
      wf := some {
        d := d, fmt := fmt, interp := decide (bf desc 29 29 = 1), len := bf desc 28 24, base := bf desc 23 0 * 4,
        i := (a.gr (4 * m + 1)).toNat, f := (a.gr (4 * m)).toNat } }

/-- A load or store of a G or Z register (R187). -/
def moveSlot (a : Arch) (cls w : Nat) : MemFx :=
  let d := bf w 9 5
  let z := bf w 8 5
  let n := bf w 4 2
  let m := bf w 1 0
  let p := (a.px 0 n).toNat
  match cls with
  | 1 => { fx := { ptr := ptrUpdate a m n 4 }, claims := [a.phys d],
           access := some { store := false, addr := p, size := 4, dst := .g (a.phys d) } }
  | 2 => { fx := { reads := [a.phys d], ptr := ptrUpdate a m n 4 },
           access := some { store := true, addr := p, size := 4, data := (a.gr d).setWidth 64 } }
  | 3 => MemFx.guard (bf w 9 9 == 0)
         { fx := { ptr := ptrUpdate a m n 8 }, claims := a.zphys z,
           access := some { store := false, addr := p, size := 8,
                            dst := .z (a.phys (2 * z)) (a.phys (2 * z + 1)) } }
  | _ => MemFx.guard (bf w 9 9 == 0)
         { fx := { reads := a.zphys z, ptr := ptrUpdate a m n 8 },
           access := some { store := true, addr := p, size := 8, data := BitVec.ofNat 64 (a.z64 z) } }

/-- ACCM (R187). -/
def accmSlot (a : Arch) (w : Nat) : MemFx :=
  let key := 2 * bf w 8 7 + bf w 6 6
  let hi := decide (bf w 5 5 = 1)
  let n := bf w 4 2
  let p := (a.px 0 n).toNat
  let v : Acc80 := tget 0 a.acc key
  let up := ptrUpdate a (bf w 1 0) n 8
  if bf w 9 9 = 0 then
    { fx := { ptr := up }, accClaims := [key],
      access := some { store := false, addr := p, size := 8, dst := .acc key hi } }
  else
    { fx := { ptr := up },
      access := some { store := true, addr := p, size := 8,
                       data := if hi then (v.extractLsb' 64 16).signExtend 64 else v.setWidth 64 } }

/-- The MA slot, 13 bits (R187 to R193). -/
def maSlot (a : Arch) (e : Env) (w : Nat) : MemFx :=
  match bf w 12 10 with
  | 0 => MemFx.guard (bf w 9 0 == 0) {}
  | 5 => MemFx.guard e.pfrOk { fx := { g := [(a.phys (bf w 9 5), e.pfr (bf w 4 0))] } }
  | 6 => waveSlot a w
  | 7 => accmSlot a w
  | c => moveSlot a c w

/-- The MB slot, 13 bits (R187, R202, R204). -/
def mbSlot (a : Arch) (e : Env) (w : Nat) : MemFx :=
  match bf w 12 10 with
  | 0 => MemFx.guard (bf w 9 0 == 0) {}
  | 5 =>
    let src := bf w 9 5
    MemFx.guard (!e.se && bf w 2 0 == 0) { fx := { reads := [a.phys src] }, send := some (bf w 4 3, a.gr src) }
  | 6 => MemFx.illegal
  | 7 => MemFx.illegal
  | c => moveSlot a c w

/-! ### F and the long instruction -/

/-- What a flow instruction does beyond writing registers. -/
inductive Flow where
  | none
  | tend (d : Bool)
  | yield
  /-- WINC, WDEC, WSET: the window asked for; 7 overflows, none underflows. -/
  | window (w : Option Nat)
  | rte
  | rotb
  | mtsr (v : Word)
  | mttr (i : Nat) (v : Word)
  | scfg (lane bus : Nat) (gain : Word)
  /-- A branch: its target when it is taken (R198). -/
  | branch (target : Option Nat)
  | loop (last count : Nat)
  /-- LOOPR with a count of 0 (R196). -/
  | skip (target : Nat)
deriving DecidableEq, Repr

/-- The effect of the F slot or the long instruction. -/
structure FlowFx where
  fx   : Fx := {}
  flow : Flow := .none
  /-- The bundle holds a Bcc, BRL, BALL, JR, JRL, LOOP or LOOPR (R213, R216). -/
  holds : Bool := false
deriving DecidableEq, Repr

/-- An undefined encoding in the F or long slot. It is no Bcc, BRL, BALL, JR, JRL, LOOP or LOOPR, also where its class bits are
those of one, so R213 and LEND do not count it (R237; DEDUCED: log entry 40). -/
def FlowFx.illegal : FlowFx := { fx := Fx.illegal }
def FlowFx.guard (ok : Bool) (f : FlowFx) : FlowFx := if ok then f else FlowFx.illegal

/-- A LOOP or LOOPR whose count or end fails the check of R196: illegal, and still what R213 asks after. -/
def FlowFx.badLoop : FlowFx := { fx := Fx.illegal, holds := true }

/-- A branch target: a 12-bit bundle index (R144, R168). -/
def targetOf (pc : Nat) (off : Int) : Nat := (((pc : Int) + off) % 4096).toNat

/-- A branch or loop, which issues as a NOP in a delay slot (R216). -/
def flowOp (inDelay : Bool) (f : FlowFx) : FlowFx := if inDelay then { holds := true } else { f with holds := true }

/-- Class 0b000 of the F slot (R195). -/
def fClass0 (a : Arch) (w : Nat) : FlowFx :=
  let low := bf w 5 0
  match bf w 10 6 with
  | 0 => FlowFx.guard (low == 0) {}
  | 1 => FlowFx.guard (bf w 5 1 == 0) { flow := .tend (decide (bf w 0 0 = 1)) }
  | 2 => FlowFx.guard (low == 0) { flow := .yield }
  | 3 => FlowFx.guard (low == 0) { flow := .window (some (a.wp + 1)) }
  | 4 => FlowFx.guard (low == 0) { flow := .window (if a.wp = 0 then none else some (a.wp - 1)) }
  | 5 => FlowFx.guard (bf w 5 3 == 0) { flow := .window (some (bf w 2 0)) }
  | 6 => FlowFx.guard (low == 0 && a.tm) { flow := .rte }
  | 7 => FlowFx.guard (low == 0 && a.rcv) { flow := .rotb }
  | _ => FlowFx.illegal

/-- The F slot, 14 bits, of the bundle at `pc` (R195). -/
def fSlot (a : Arch) (pc : Nat) (inDelay : Bool) (w : Nat) : FlowFx :=
  let r := bf w 4 0
  match bf w 13 11 with
  | 0 => fClass0 a w
  | 1 =>
    match condHolds a.sr (bf w 10 7) with
    | none => FlowFx.illegal
    | some c =>
      flowOp inDelay { flow := .branch (if c then some (targetOf pc (sextI 7 (bf w 6 0))) else none) }
  | 2 =>
    let link : List (Nat × Word) := if bf w 10 10 = 1 then [(15, BitVec.ofNat 32 (pc + 2))] else []
    FlowFx.guard (bf w 9 5 == 0)
      (flowOp inDelay
        { fx := { reads := [a.phys r], g := link }, flow := .branch (some ((a.gr r).toNat % 4096)) })
  | 3 => FlowFx.guard (bf w 10 5 == 0) { fx := { g := [(a.phys r, a.srWord)] } }
  | 4 => FlowFx.guard (bf w 10 5 == 0) { fx := { reads := [a.phys r] }, flow := .mtsr (a.gr r) }
  | 5 =>
    let i := bf w 9 7
    FlowFx.guard (a.tm && decide (i ≤ 5) && bf w 6 5 == 0)
      (if bf w 10 10 = 0 then { fx := { g := [(a.phys r, a.trapReg i)] } }
       else { fx := { reads := [a.phys r] }, flow := .mttr i (a.gr r) })
  | _ => FlowFx.illegal

/-- The long instruction, 24 bits, of the bundle at `pc` (R196). -/
def longSlot (a : Arch) (e : Env) (pc : Nat) (inDelay : Bool) (w : Nat) : FlowFx :=
  let off := sextI 15 (bf w 14 0)
  let last := bf w 7 0
  match bf w 23 19 with
  | 0 => FlowFx.guard (bf w 18 0 == 0) {}
  | 1 =>
    match condHolds a.sr (bf w 18 15) with
    | none => FlowFx.illegal
    | some c => flowOp inDelay { flow := .branch (if c then some (targetOf pc off) else none) }
  | 2 => FlowFx.guard (bf w 18 15 == 0)
      (flowOp inDelay
        { fx := { g := [(15, BitVec.ofNat 32 (pc + 2))] }, flow := .branch (some (targetOf pc off)) })
  | 3 =>
    let n := bf w 18 8
    if inDelay || (n != 0 && last != 0) then flowOp inDelay { flow := .loop (pc + last) n } else FlowFx.badLoop
  | 4 =>
    let g := bf w 18 14
    let n := (a.gr g).toNat
    FlowFx.guard (bf w 13 8 == 0)
      (if inDelay || last != 0 then
        flowOp inDelay
          { fx := { reads := [a.phys g] }, flow := if n = 0 then .skip (pc + last + 1) else .loop (pc + last) n }
      else FlowFx.badLoop)
  | 5 =>
    let g := bf w 8 4
    FlowFx.guard (!e.se && bf w 3 0 == 0)
      { fx := { reads := [a.phys g] }, flow := .scfg (bf w 18 17) (bf w 16 9) (a.gr g) }
  | _ => FlowFx.illegal

end Sys2Proof.Machine
end

