-- ==== Sys2Proof/Machine/Bundle.lean ====
section
/-! DEFINITION. The issue of one bundle: its checks and their order (R173, R177, R180, R192, R201, R202, R234), the
successor (R210 to R218), the mode shadow (R219 to R222), window moves (R227 to R232) and the recorded position of
a fault (R237). Every function here is pure: the core units supply memory and take the outcome. -/

namespace Sys2Proof.Machine

/-! ### The decoded bundle -/

/-- The four slots of a bundle, computed from the registers before it (R170 to R172). -/
structure Slots where
  long : Bool
  imm  : Bool
  x    : Fx
  ma   : MemFx
  mb   : MemFx
  fl   : FlowFx

/-- The slots of a bundle word (R170, R171, R180). -/
def slotsOf (a : Arch) (e : Env) (w : Nat) : Slots :=
  let long := decide (bf w 26 24 = 7)
  let lw := bf w 23 0
  let imm := isImm (bf w 63 58)
  let inDelay := a.pos.delay.isSome
  { long := long, imm := imm, x := xSlot a (bf w 63 40) lw, ma := maSlot a e (bf w 39 27)
    mb := if long then {} else mbSlot a e (bf w 26 14)
    fl := if long then (if imm then {} else longSlot a e a.pc inDelay lw) else fSlot a a.pc inDelay (bf w 13 0) }

/-- The G registers that a memory slot writes. -/
def MemFx.gws (m : MemFx) : List Nat := m.fx.g.map (·.1) ++ m.claims

/-- Two lists share an element. -/
def meets (a b : List Nat) : Bool := a.any fun x => b.contains x

/-- What a slot writes: G registers, accumulator halves, address registers. -/
structure Wr where
  g   : List Nat
  acc : List Nat
  ptr : List Nat

def Fx.wr (f : Fx) : Wr := { g := f.g.map (·.1), acc := f.acc.map (·.1), ptr := f.ptr.map (·.1) }
def MemFx.wr (m : MemFx) : Wr := { g := m.gws, acc := m.accClaims, ptr := m.fx.ptr.map (·.1) }

/-- Two slots write the same register (R173). -/
def Wr.clash (a b : Wr) : Bool := meets a.g b.g || meets a.acc b.acc || meets a.ptr b.ptr

/-- TCAUSE.SLOT as four bits: X 8, MA 4, MB 2, F or long 1 (R238). -/
def slotMask (x ma mb f : Bool) : Nat := 8 * b2n x + 4 * b2n ma + 2 * b2n mb + b2n f

/-- The slots of an illegal-bundle fault (R173, R180, R201, R234). -/
def Slots.bundleBad (p : Slots) : Nat :=
  let x := p.x.wr
  let a := p.ma.wr
  let b := p.mb.wr
  let f := p.fl.fx.wr
  let noImm := p.imm && !p.long
  let srClash := p.x.setsFlags && (match p.fl.flow with
    | .mtsr _ => true
    | _ => false)
  slotMask (noImm || srClash || x.clash a || x.clash b || x.clash f) (x.clash a || a.clash b || a.clash f)
    (x.clash b || a.clash b || b.clash f) (srClash || x.clash f || a.clash f || b.clash f)

/-- The slots with an undefined encoding (R177). -/
def Slots.instrBad (p : Slots) : Nat := slotMask p.x.bad p.ma.fx.bad p.mb.fx.bad p.fl.fx.bad

/-! ### Checks -/

/-- Why an access faults: 3 alignment, 4 address, none when it may be made (R159, R234). -/
def accessFault (e : Env) : Option MemAccess → Option Nat
  | none => none
  | some m =>
    if m.addr % m.size ≠ 0 then some 3
    else if m.store then (if e.storeOk m.addr m.size m.data then none else some 4)
    else if e.loadOk m.addr m.size then none
    else some 4

/-- The addresses of the samples that a fetch reads, s0 before s1 (R191). -/
def WaveFetch.addrs (f : WaveFetch) : List Nat :=
  let n := 2 ^ f.len
  let sz := sampleBytes f.fmt
  (f.base + f.i % n * sz) :: (if f.interp then [f.base + (f.i % n + 1) % n * sz] else [])

/-- TADDR of a wave-access fault, none when the fetch may be made (R192). -/
def waveFault (e : Env) : Option WaveFetch → Option Nat
  | none => none
  | some f =>
    if 24 < f.len ∨ (2 ≤ f.fmt ∧ f.d % 2 = 1) ∨ (f.fmt = 3 ∧ f.base % 8 ≠ 0) then some f.base
    else f.addrs.find? fun x => (e.wave x).isNone

/-- A send fault of MB or of the long instruction (R202). -/
def sendFault (lanes : Tbl Lane) (mb : MemFx) (fl : FlowFx) : Nat :=
  let lane (r : Nat) : Option Lane := (lanes.find? fun x => x.1 == r).map (·.2)
  let b := match mb.send with
    | none => false
    | some (r, _) =>
      match lane r with
      | none => true
      | some l => decide (16 ≤ l.frames.length)
  let f := match fl.flow with
    | .scfg r _ _ => (lane r).isSome
    | _ => false
  slotMask false false b f

/-- A halt condition of a bundle without a fault (R218, R231, R242). -/
def haltOf (a : Arch) (fl : Flow) : Option Nat :=
  match fl with
  | .loop _ _ => if 4 ≤ a.loops.length then some 0x23 else none
  | .window w =>
    if a.tm then some 0x20
    else
      match w with
      | none => if a.sd = 0 then some 0x22 else none
      | some n => if 7 ≤ n ∧ 48 ≤ a.spillBase + a.sd then some 0x21 else none
  | _ => none

/-- A fault found at issue: code, slots, TADDR. -/
structure FaultInfo where
  code  : Nat
  slots : Nat
  addr  : Nat

/-- The fault that a bundle takes, by the order of R234. -/
def Slots.fault (p : Slots) (e : Env) (lanes : Tbl Lane) : Option FaultInfo :=
  let ib := p.bundleBad
  let ii := p.instrBad
  let ma := accessFault e p.ma.access
  let mb := accessFault e p.mb.access
  let wv := waveFault e p.ma.wf
  let sd := sendFault lanes p.mb p.fl
  let mask := ib ||| ii ||| slotMask false (ma.isSome || wv.isSome) mb.isSome false ||| sd
  let addrOf (x : Option MemAccess) : Nat := (x.map (·.addr)).getD 0
  if ib ≠ 0 then some { code := 2, slots := mask, addr := 0 }
  else if ii ≠ 0 then some { code := 1, slots := mask, addr := 0 }
  else
    match ma, mb, wv with
    | some c, _, _ => some { code := c, slots := mask, addr := addrOf p.ma.access }
    | none, some c, _ => some { code := c, slots := mask, addr := addrOf p.mb.access }
    | none, none, some t => some { code := 5, slots := mask, addr := t }
    | none, none, none => if sd ≠ 0 then some { code := 6, slots := mask, addr := 0 } else none

/-- The registers that outstanding fetches will write. -/
def fetchRegs (fs : List Fetch) : List Nat :=
  fs.flatMap fun f => f.reg :: (match f.reg2 with
    | some r => [r.1]
    | none => [])

/-- The bundle holds a fifth fetch: four are outstanding, or it has waited as the fifth and the oldest is still out
(R207). -/
def Slots.isFifth (p : Slots) (fs : List Fetch) (fifth : Bool) : Bool :=
  p.ma.wf.isSome && (decide (4 ≤ fs.length) || fifth)

/-- The bundle waits: a register with a fetch outstanding, or a fifth fetch (R172, R194, R207). -/
def Slots.waits (p : Slots) (fs : List Fetch) (fifth : Bool) : Bool :=
  let busy := fetchRegs fs
  let x := p.x.reads ++ p.x.wr.g
  let a := p.ma.fx.reads ++ p.ma.gws
  let b := p.mb.fx.reads ++ p.mb.gws
  let f := p.fl.fx.reads ++ p.fl.fx.wr.g
  meets busy (x ++ a ++ b ++ f) || p.isFifth fs fifth

/-! ### Loops and the successor -/

/-- The top level is compared with this bundle (R213, R241). -/
def loopDue (tm : Bool) (pc : Nat) : List Loop → Bool
  | [] => false
  | l :: _ => decide (l.last = pc) && (!tm || l.inTrap)

/-- loop_end of R212: the stack after it and the successor. -/
def loopEnd (tm : Bool) (pc : Nat) : List Loop → List Loop × Nat
  | [] => ([], pc + 1)
  | l :: rest =>
    if loopDue tm pc (l :: rest) then
      if 1 < l.count then ({ l with count := l.count - 1 } :: rest, l.start) else loopEnd tm pc rest
    else (l :: rest, pc + 1)

/-- The loop-end action recorded in TCAUSE.LEND, made at whatever bundle RTE issues (R240, R242). -/
def loopEndForced (ls : List Loop) : List Loop :=
  match ls with
  | [] => []
  | l :: _ => (loopEnd false l.last ls).1

/-- Where control goes after a bundle (R215, R240): the stack, the successor, and whether the loop-end action is made. -/
structure Next where
  loops : List Loop
  pc    : Nat
  lend  : Bool

/-- The successor of a bundle at a.pc with this flow instruction. -/
def nextOfBundle (a : Arch) (f : FlowFx) : Next :=
  match a.pos.forced with
  | some (t, l) => { loops := if l then loopEndForced a.loops else a.loops, pc := t, lend := l }
  | none =>
    match a.pos.delay with
    | some (some t) => { loops := a.loops, pc := t, lend := false }
    | _ =>
      if !f.holds && loopDue a.tm a.pc a.loops then
        let r := loopEnd a.tm a.pc a.loops
        { loops := r.1, pc := r.2, lend := true }
      else
        { loops := a.loops, lend := false,
          pc := match f.flow with
            | .skip t => t
            | _ => a.pc + 1 }

/-- TCAUSE for a fault in the bundle at a.pc (R237, R238). -/
def causeWord (a : Arch) (lend : Bool) (code slots : Nat) : Word :=
  let w : Word := BitVec.ofNat 32 (slots * 2 ^ 24 + code)
  let w := if a.pos.delay.isSome then w ||| 0x80000000 else w
  let w := match a.pos.shadow with
    | some b => (w ||| 0x40000000) ||| (if b then 0x20000000 else 0)
    | none => w
  if lend then w ||| 0x10000000 else w

/-! ### Sends (R136, R202) -/

/-- g(n) of R136. -/
def rampGain (l n : Nat) : Nat := ((l - 1 - n) * 2 ^ 31 + l / 2) / l

/-- fit32 of SEND overflows: it sets V and SVS (R156, R202). -/
def sendOverflows (x gain : Word) : Bool := (fit32 (rnd (x.toInt * gain.toInt) 31) true).2

/-- The bundle with the flags of its SEND, the lanes given (R156, R202). -/
def Slots.withSend (p : Slots) (lanes : Tbl Lane) : Slots :=
  match p.mb.send with
  | none => p
  | some (r, x) =>
    match lanes.find? fun e => e.1 == r with
    | some e => if sendOverflows x e.2.gain then
        { p with mb := { p.mb with fx := { p.mb.fx with flags := { v := some true } } } } else p
    | none => p

/-- The value that SEND delivers as frame j of the block (R202). -/
def sendValue (ramp : Option (Nat × Nat)) (blk j : Nat) (x gain : Word) : Word :=
  let c := (fit32 (rnd (x.toInt * gain.toInt) 31) true).1
  match ramp with
  | none => c
  | some (f0, l) =>
    let f := 16 * blk + j
    if f < f0 then c
    else if f - f0 ≤ l - 1 then wordI (rnd (c.toInt * rampGain l (f - f0)) 31)
    else 0

/-- The lanes after a bundle's SEND or SCFG. -/
def lanesAfter (ramp : Option (Nat × Nat)) (blk : Nat) (lanes : Tbl Lane) (mb : MemFx) (fl : Flow) : Tbl Lane :=
  let sent := match mb.send with
    | none => lanes
    | some (r, x) => lanes.map fun e =>
      if e.1 = r then (r, { e.2 with frames := e.2.frames ++ [sendValue ramp blk e.2.frames.length x e.2.gain] })
      else e
  match fl with
  | .scfg r b g => tins r { bus := b, gain := g } sent
  | _ => sent

/-! ### The registers after a bundle -/

/-- Register, flag and pointer writes of the four slots (R172). Of V, a SEND that overflows sets it over what the X slot
makes of it, and one that does not overflow leaves what the X slot makes (R202; DEDUCED: log entry 40). -/
def Arch.writeSlots (a : Arch) (p : Slots) : Arch :=
  let gs := p.x.g ++ p.ma.fx.g ++ p.mb.fx.g ++ p.fl.fx.g
  let a := gs.foldl (fun t e => t.setGp e.1 e.2) a
  let a := p.x.acc.foldl (fun t e => t.setAcc e.1 e.2) a
  let a := (p.x.ptr ++ p.ma.fx.ptr ++ p.mb.fx.ptr).foldl (fun t e => t.setPtr e.1 e.2) a
  { a with sr := p.mb.fx.flags.apply (p.x.flags.apply a.sr) }

/-- RCV of an MTSR against the value that applies after its bundle opens a shadow when it differs (R219, R220). -/
def shadowAfter (a : Arch) (f : Flow) : Option Bool :=
  match f with
  | .mtsr v => if bit v 22 = a.pos.shadow.getD a.rcv then none else some (bit v 22)
  | _ => none

/-- RTE (R240). `wp7` is the window taken where TWP holds the undefined value 7. -/
def Arch.rte (a : Arch) (wp7 : Nat) : Arch :=
  let c := a.tcause
  let w := (a.twp &&& 7).toNat
  { a with
    loops := a.loops.drop (a.loops.length - fld a.tsr 21 19)
    sr := a.tsr &&& 0x004000DF
    tm := false
    wp := if w = 7 then wp7 else w
    pc := (a.tpc &&& 0xFFF).toNat
    pos := {
      delay := if bit c 31 then some none else none
      shadow := if bit c 30 then some (bit c 29) else none
      forced := some ((a.tnpc &&& 0xFFF).toNat, bit c 28) } }

/-- What a flow instruction does to the registers. A LOOP whose end lies above bundle 4,095 keeps the whole sum, which no
bundle index equals; the debug window shows it modulo 4,096 (R210; DESIGN CHOICE, unsafe: log entry 61). -/
def Arch.flow (a : Arch) (f : Flow) (wp7 : Nat) : Arch :=
  match f with
  | .window (some n) => if n < 7 then { a with wp := n } else a
  | .rotb => { a with rrb := (a.rrb + 1) % 16 }
  | .mtsr v => { a with sr := (a.sr &&& 0x00400000) ||| (v &&& 0x000000DF) }
  | .mttr i v => a.setTrapReg i v
  | .loop last n => { a with loops := { start := a.pc + 1, last := last, count := n, inTrap := a.tm } :: a.loops }
  | .rte => a.rte wp7
  | _ => a

/-- The registers after a bundle that issues: writes, flow, shadow, successor and position. -/
def Arch.after (a : Arch) (p : Slots) (wp7 : Nat) : Arch :=
  let n := nextOfBundle a p.fl
  let b := { a.writeSlots p with loops := n.loops }
  let b := match a.pos.shadow with
    | some r => { b with sr := setFld b.sr 22 22 (b2n r) }
    | none => b
  match p.fl.flow with
  | .rte => b.rte wp7
  | f =>
    { b.flow f wp7 with
      pc := n.pc
      pos := {
        delay := match f with
          | .branch t => some t
          | _ => none
        shadow := shadowAfter a f } }

/-! ### Issue -/

/-- What comes of a bundle. -/
inductive Issued where
  /-- The bundle waits: nothing happens. -/
  | wait
  /-- A fault with SR.TM = 0: TPC, TNPC, TCAUSE, TADDR (R236, R243). -/
  | fault (tpc tnpc : Nat) (tcause taddr : Word)
  /-- A halt condition (R244). -/
  | halt (tpc tnpc : Nat) (tcause taddr : Word)
  /-- The bundle has taken effect, but for its memory accesses. -/
  | done (a : Arch) (p : Slots)

/-- A fault or, in a trap handler, the double trap it is (R242). -/
def faultOutcome (a : Arch) (tnpc : Nat) (lend : Bool) (i : FaultInfo) : Issued :=
  if a.tm then .halt a.pc tnpc (causeWord a lend 0x20 i.slots) (BitVec.ofNat 32 i.addr)
  else .fault a.pc tnpc (causeWord a lend i.code i.slots) (BitVec.ofNat 32 i.addr)

/-- Where a fault past the end of the program records that control would go: the successor that RTE or the delay slot of a
taken branch fixes, else the next index (R237, R240). -/
def beyondNext (a : Arch) : Nat × Bool :=
  match a.pos.forced, a.pos.delay with
  | some x, _ => x
  | none, some (some t) => (t, false)
  | none, _ => (a.pc + 1, false)

/-- Issues the bundle word `w` at a.pc (R172 to R178, R217, R234). -/
def issue (a : Arch) (e : Env) (lanes : Tbl Lane) (fs : List Fetch) (wp7 w : Nat) : Issued :=
  if e.len ≤ a.pc then
    faultOutcome a (beyondNext a).1 (beyondNext a).2 { code := 4, slots := 0, addr := a.pc }
  else
    let p := slotsOf a e w
    let n := nextOfBundle a p.fl
    if p.waits fs e.fifth then .wait
    else
      match p.fault e lanes with
      | some i => faultOutcome a n.pc n.lend i
      | none =>
        match haltOf a p.fl.flow with
        | some c => .halt a.pc n.pc (causeWord a n.lend c 0) 0
        | none => .done (a.after (p.withSend lanes) wp7) p

/-! ### Windows (R227 to R230) -/

/-- The 16 registers of window 0. -/
def Arch.window0 (a : Arch) : List Word := (List.range 16).map fun r => tget 0 a.win r

/-- Window 0 has been spilled: 1 to 6 become 0 to 5, 6 reads zero (R227). -/
def Arch.overflow (a : Arch) : Arch :=
  { a with
    win := a.win.filterMap fun e =>
      if e.1 < 16 then none else if e.1 < 112 then some (e.1 - 16, e.2) else some e
    sd := a.sd + 1
    wp := 6 }

/-- Windows 0 to 5 become 1 to 6 and window 0 is filled (R228). -/
def Arch.underflow (a : Arch) (w0 : List Word) : Arch :=
  let kept := a.win.filterMap fun e =>
    if e.1 < 96 then some (e.1 + 16, e.2) else if e.1 < 112 then none else some e
  { a with
    win := (List.range 16).foldr (fun r t => tput 0 t r (w0.getD r 0)) kept
    sd := a.sd - 1 }

/-! ### Trap entry (R236, R239) -/

/-- The registers at the first bundle of the handler; `base` is the base of the core's memory (R400). Every level on the stack
was pushed before this entry (R241). -/
def Arch.enterTrap (a : Arch) (trap base tpc tnpc : Nat) (tcause taddr : Word) : Arch :=
  let t : Arch := { a with
    tpc := BitVec.ofNat 32 (tpc % 4096)
    tnpc := BitVec.ofNat 32 (tnpc % 4096)
    tsr := a.srWord
    twp := BitVec.ofNat 32 a.wp
    tcause := tcause
    taddr := taddr
    tm := true
    sr := a.sr &&& 0xFFBFFFFF
    wp := 7
    pc := trap
    pos := {}
    loops := a.loops.map fun l => { l with inTrap := false } }
  let area : Word := BitVec.ofNat 32 (base + 0xC00)
  (((t.setPtr 32 area).setPtr 33 area).setPtr 34 1024).setPtr 35 0

/-! ### Wave fetch values (R191) -/

/-- One half of an interpolated sample. -/
def lerp (interp : Bool) (f : Nat) (s0 s1 : Int) : Word :=
  if interp then wordI (s0 + rnd ((s1 - s0) * f) 32) else wordI s0

/-- The halves of a sample of this format, from its bytes as a number (R190). -/
def sampleHalves (fmt raw : Nat) : Int × Int :=
  match fmt with
  | 0 => (sextI 16 (raw % 2 ^ 16) * 65536, 0)
  | 1 => (sextI 32 (raw % 2 ^ 32), 0)
  | 2 => (sextI 16 (raw % 2 ^ 16) * 65536, sextI 16 (raw / 2 ^ 16 % 2 ^ 16) * 65536)
  | _ => (sextI 32 (raw % 2 ^ 32), sextI 32 (raw / 2 ^ 32 % 2 ^ 32))

/-- The fetch that a WF starts: its registers, and the values that will arrive. `raw1` is s1 where it lies in the word that
s0 is read from; `later` is its address where it is read on its own (R362). -/
def WaveFetch.start (f : WaveFetch) (regs : List Nat) (raw0 raw1 : Nat) (later : Option Nat) : Fetch :=
  let a := sampleHalves f.fmt raw0
  let b := sampleHalves f.fmt raw1
  let re := lerp f.interp f.f a.1 b.1
  let second := later.map fun x => ({ addr := x, fmt := f.fmt, frac := f.f, re := a.1, im := a.2 } : SecondRead)
  match regs with
  | [r] => { reg := r, val := re, second := second }
  | r :: q :: _ => { reg := r, val := re, reg2 := some (q, lerp f.interp f.f a.2 b.2), second := second }
  | [] => { reg := 0, val := re, second := second }

/-- The fetch once s1 has been read (R191, R362). -/
def Fetch.finish (f : Fetch) (x : SecondRead) (raw1 : Nat) : Fetch :=
  let b := sampleHalves x.fmt raw1
  { f with
    val := lerp true x.frac x.re b.1
    reg2 := f.reg2.map fun r => (r.1, lerp true x.frac x.im b.2)
    second := none }

/-- The registers after a fetch's value arrives. -/
def Arch.arrive (a : Arch) (f : Fetch) : Arch :=
  let b := a.setGp f.reg f.val
  match f.reg2 with
  | some r => b.setGp r.1 r.2
  | none => b

end Sys2Proof.Machine
end

