-- ==== Sys2Proof/Machine/Wave.lean ====
section
/-! DEFINITION. The Wave Store: banks, owners, handovers, clears and the accesses an agent makes (R337 to R363). -/

namespace Sys2Proof.Machine

/-- The bank of a Wave Store byte address (R337). -/
def bankOf (a : Nat) : Nat := a / 0x400000

/-- OWNER of bank b (R339). -/
def State.wsOwner (s : State) (b : Nat) : Nat := s.rf (Reg.WS_OWN b) 31 28

/-- FROM of bank b (R343). -/
def State.wsFrom (s : State) (b : Nat) : Nat := s.rf (Reg.WS_OWN b) 27 24

/-- LBANK of bank b (R350). -/
def State.wsLbank (s : State) (b : Nat) : Nat := s.rf (Reg.WS_OWN b) 23 20

/-- FEED of bank b (R361). -/
def State.wsFeed (s : State) (b : Nat) : Bool := s.rb (Reg.WS_OWN b) 19

/-- SEALED of bank b (R358). -/
def State.wsSealed (s : State) (b : Nat) : Bool := s.rb (Reg.WS_OWN b) 18

/-- A handover of bank b waits for a block boundary (R345). -/
def State.wsPending (s : State) (b : Nat) : Bool := s.rb (Reg.WS_OWN b) 17

/-- A drain or a clear of bank b is in progress (R344, R347). -/
def State.wsBusyBit (s : State) (b : Nat) : Bool := s.rb (Reg.WS_OWN b) 16

/-- How many of n accesses that bank b serves collided, and the longest wait of one, in way cycles: free values, as the way
cycles of R352 have no place in the state (R353, R354, R363; log entries 4 and 8). -/
def State.wsWaits (s : State) (b n : Nat) : State :=
  let c := s.free 32
  let w := c.2.free 16
  let k := min c.1.toNat n
  if k = 0 then w.2 else (w.2.countBy (Reg.WS_CNT_COLL b) k).peak (Reg.WS_WAIT b) 31 16 (max 1 w.1.toNat)

/-- Counts word accesses that a bank serves, in units of 1,024 (R363). -/
def State.wsCount (s : State) (b n : Nat) : State :=
  let k := tget 0 s.wsAcc b + n
  ({ s with wsAcc := tput 0 s.wsAcc b (k % 1024) }.countBy (Reg.WS_CNT_ACC b) (k / 1024)).wsWaits b n

/-- Counts an access that bank b refuses under R340. A write refused because the bank is sealed (R359) is not one. -/
def State.wsRefuse (s : State) (b : Nat) : State := s.count (Reg.WS_CNT_REFUSED b)

/-- The banks that hold bytes a to a + n - 1. -/
def banksOf (a n : Nat) : List Nat := (List.range 16).filter fun b => decide (bankOf a ≤ b) && decide (b ≤ bankOf (a + n - 1))

/-- The word reads of a copy of n bytes from address a with an agent's rights are counted by the banks that serve them, or that
refuse them under R340 (R363). -/
def State.wsCountSpan (s : State) (agent a n : Nat) : State :=
  (banksOf a n).foldl (fun t b =>
    let words := (min (a + n) ((b + 1) * 0x400000) + 7) / 8 - max a (b * 0x400000) / 8
    if s.wsOwner b = agent then t.wsCount b words else t.countBy (Reg.WS_CNT_REFUSED b) words) s

/-- Bank b has a new owner: a load of a Stage Engine and a WRITE of non-volatile memory that are under way note it (R406,
R636). -/
def State.bankMoved (s : State) (b : Nat) : State :=
  let s : State := match s.nvm.op with
    | some o => { s with nvm := { s.nvm with op := some { o with moved := o.moved || decide (o.source = some b) } } }
    | none => s
  iter (fun e t =>
    let g := t.stg e
    if g.load.isSome then t.setStg e { g with moved := b :: g.moved } else t) 0 2 s

/-- The bank that cluster c sees as logical bank L (R350). -/
def State.clusterBank (s : State) (c l : Nat) : Option Nat :=
  firstFrom (fun b => decide (s.wsOwner b = 8 + c) && decide (s.wsLbank b = l)) 0 16

/-- How a bank answers an access of a requester's agent. -/
inductive WsAnswer where
  | ok
  /-- The read returns zero without a fault (R359). -/
  | zero
  | refused (cause : Nat)
deriving DecidableEq, Repr

/-- Judges a requester's read of bank b (R340, R359). -/
def State.wsJudgeRead (s : State) (agent b : Nat) : WsAnswer :=
  if s.wsSealed b then .zero
  else if s.wsOwner b = agent then .ok
  else .refused 1

/-- Judges a requester's write of bank b (R340, R359, R361). -/
def State.wsJudgeWrite (s : State) (agent b : Nat) : WsAnswer :=
  let feed := decide (8 ≤ s.wsOwner b) && s.wsFeed b && decide (s.wsFrom b = agent)
  if s.wsOwner b = agent ∨ feed = true then
    (if s.wsSealed b then .refused 6 else .ok)
  else .refused 1

/-- The new owner of an accepted handover waits while the bank is busy (R344, R356). -/
def State.wsStalls (s : State) (agent b : Nat) : Bool :=
  s.rb Reg.WS_STAT 16 || (s.wsBusyBit b && decide (s.wsOwner b = agent))

/-- Cluster c holds, in effect or pending, a bank other than b under logical bank l (R342). -/
def State.lbankTaken (s : State) (b c l : Nat) : Bool :=
  (firstFrom (fun x =>
    decide (x ≠ b) &&
    ((decide (s.wsOwner x = 8 + c) && decide (s.wsLbank x = l)) ||
     (match tget none s.wsPend x with
      | some w => decide (fld w 31 28 = 8 + c) && decide (fld w 23 20 = l)
      | none => false))) 0 16).isSome

/-- R341: whether the writer's agent may write this OWNER to bank b. -/
def State.wsMayWrite (s : State) (agent b new : Nat) : Bool :=
  let cur := s.wsOwner b
  if cur = 0 then decide (new = agent)
  else if cur = 4 then false
  else if cur < 4 then
    decide (cur = agent) && (decide (new < 4) || decide (8 ≤ new))
  else
    decide (s.wsFrom b = agent) && (decide (new < 4) || decide (8 ≤ new))

/-- The writer could write bank b at all: the owner, FROM of a cluster's bank, or anyone to a free bank (R341). -/
def State.wsWriter (s : State) (agent b : Nat) : Bool :=
  let cur := s.wsOwner b
  if cur = 0 then true
  else if cur = 4 then false
  else if cur < 4 then decide (cur = agent)
  else decide (s.wsFrom b = agent)

/-- The cause of refusal of a write of `w` to WS_OWN[b], 0 when it is accepted (R341, R342, R18, R19). -/
def State.wsOwnJudge (s : State) (agent b : Nat) (w : Word) : Nat :=
  let new := fld w 31 28
  if s.wsWriter agent b = false then 1
  else if 5 ≤ new ∧ new ≤ 7 then 5
  else if s.wsMayWrite agent b new = false then 1
  else if s.wsPending b ∨ s.wsBusyBit b then 6
  else if fld w 15 0 ≠ 0 then 5
  else if 8 ≤ new ∧ s.lbankTaken b (new - 8) (fld w 23 20) = true then 5
  else 0

/-- Ownership fields put in effect: OWNER, FROM, LBANK, FEED (R343). -/
def State.wsTake (s : State) (b : Nat) (w : Word) : State :=
  let cur := s.wsOwner b
  let new := fld w 31 28
  let frm := if new < 8 then 0 else if 1 ≤ cur ∧ cur ≤ 3 then cur else s.wsFrom b
  let x := s.reg (Reg.WS_OWN b)
  let x := setFld x 31 28 new
  let x := setFld x 27 24 frm
  let x := setFld x 23 20 (fld w 23 20)
  let t := s.setReg (Reg.WS_OWN b) (setFld x 19 19 (fld w 19 19))
  if new = cur then t else t.bankMoved b

/-- Starts the clear of a bank handed to none (R347, R360). -/
def State.wsStartClear (s : State) (b : Nat) : State :=
  let t := s.setRf (Reg.WS_OWN b) 16 16 1
  { t with wsBusy := tput 0 t.wsBusy b 2 }

/-- An accepted write to WS_OWN[b] (R341 to R347, R361). -/
def State.wsOwnWrite (s : State) (b : Nat) (w : Word) : State :=
  let cur := s.wsOwner b
  let new := fld w 31 28
  if new = cur then
    if 8 ≤ cur ∧ fld w 23 20 ≠ s.wsLbank b then
      let t := (s.setRf (Reg.WS_OWN b) 19 19 (fld w 19 19)).setRf (Reg.WS_OWN b) 17 17 1
      { t with wsPend := tput none t.wsPend b (some w) }
    else s.wsTake b w
  else if 8 ≤ cur ∨ 8 ≤ new then
    let t := s.setRf (Reg.WS_OWN b) 17 17 1
    { t with wsPend := tput none t.wsPend b (some w) }
  else if new = 0 then (s.wsTake b w).wsStartClear b
  else if cur = 0 then s.wsTake b w
  else
    let t := (s.wsTake b w).setRf (Reg.WS_OWN b) 16 16 1
    { t with wsBusy := tput 0 t.wsBusy b 1 }

/-- Every task on cluster c has ended: none is running or saved (R345). -/
def State.clusterQuiet (s : State) (c : Nat) : Bool :=
  (firstFrom (fun n =>
    (s.core n).run.isSome || !(s.core n).saved.isEmpty) (8 * c) 8).isNone

/-- A block boundary puts the pending handover of bank b into effect where no task of the losing cluster
still runs (R345). -/
def State.wsBoundary (b : Nat) (s : State) : State :=
  match tget none s.wsPend b with
  | none => s
  | some w =>
    let cur := s.wsOwner b
    if 8 ≤ cur ∧ s.clusterQuiet (cur - 8) = false then s
    else
      let t := (s.wsTake b w).setRf (Reg.WS_OWN b) 17 17 0
      let t := { t with wsPend := tput none t.wsPend b none }
      if fld w 31 28 = 0 then t.wsStartClear b else t

/-- Every bank's pending handover at a block boundary (R345). -/
def State.wsHandovers (s : State) : State := iter State.wsBoundary 0 16 s

/-- WS_STAT.CLUSTERVIEW: every cluster with a core in service sees logical bank l. -/
def State.clusterView (s : State) : Nat :=
  sumOf (fun l =>
    if (firstFrom (fun c =>
        (firstFrom (fun n => !(s.core n).oos) (8 * c) 8).isSome && (s.clusterBank c l).isNone) 0 8).isNone
    then 2 ^ l else 0) (List.range 16)

/-! ### Reads of a wave fetch (R191, R338, R362) -/

/-- The bytes of a sample at a physical address, as a number. -/
def State.sampleAt (s : State) (a n : Nat) : Nat := leNat (s.bytes a n)

/-- Counts the words that a fetch reads, one when both samples lie in one word (R338, R363). -/
def State.countWords (s : State) (as : List Nat) : State :=
  ((as.map (· / 8)).eraseDups).foldl (fun t w => t.wsCount (bankOf (8 * w)) 1) s

/-- What an arriving fetch still has to read is read (R362). -/
def State.finishFetch (s : State) (f : Fetch) : Fetch × State :=
  match f.second with
  | none => (f, s)
  | some x => (f.finish x (s.sampleAt x.addr (sampleBytes x.fmt)), s.countWords [x.addr])

/-- The fetch has still to read a word of bank b. -/
def Fetch.reads (f : Fetch) (b : Nat) : Bool :=
  match f.second with
  | some x => decide (bankOf x.addr = b)
  | none => false

/-- Of a list of fetches, those that meet a condition read what they still have to read. -/
def State.finishAll (s : State) (ok : Fetch → Bool) : List Fetch → List Fetch × State
  | [] => ([], s)
  | f :: l =>
    let x := if ok f then s.finishFetch f else (f, s)
    let r := x.2.finishAll ok l
    (x.1 :: r.1, r.2)

/-- The Wave Store accesses that Stage Engine e has made for fetches that meet a condition complete: the end of BUSY waits for
those to its bank, a stop for all of them (R344, R411). -/
def State.settleStage (ok : Fetch → Bool) (e : Nat) (s : State) : State :=
  let g := s.stg e
  match g.tr with
  | none => s
  | some r =>
    if r.fetches.any fun f => f.second.isSome && ok f then
      let x := s.finishAll ok r.fetches
      x.2.setStg e { g with tr := some { r with fetches := x.1 } }
    else s

/-- The end of a drain: the old owner's accesses are complete, and BUSY clears (R344). -/
def State.wsDrainEnd (s : State) (b : Nat) : State :=
  if tget 0 s.wsBusy b = 1 then
    let t := (iter (State.settleStage fun f => f.reads b) 0 2 s).setRf (Reg.WS_OWN b) 16 16 0
    { t with wsBusy := tput 0 t.wsBusy b 0 }
  else s

/-- The end of a clear: the bank reads zero, SEALED and BUSY clear (R357, R360), after the old owner's accesses (R344). -/
def State.wsClearEnd (s : State) (b : Nat) : State :=
  if tget 0 s.wsBusy b = 2 then
    let t := (iter (State.settleStage fun f => f.reads b) 0 2 s).clearBytes (b * 0x400000) 0x400000
    let t := (t.setRf (Reg.WS_OWN b) 16 16 0).setRf (Reg.WS_OWN b) 18 18 0
    { t with wsBusy := tput 0 t.wsBusy b 0 }
  else s

end Sys2Proof.Machine
end

