-- ==== Sys2Proof/Machine/Fabric.lean ====
section
/-! DEFINITION. The modulation fabric: its arithmetic, nodes, strings, patch images, evaluation and parameter
frames (R253 to R295, R677). -/

namespace Sys2Proof.Machine

/-! ### Arithmetic (R263) -/

/-- Bisects for the largest `m` below `lo + 2^n` with `p m`, `p` holding from `lo` downwards. -/
def bisect (p : Nat → Bool) : Nat → Nat → Nat
  | lo, 0 => lo
  | lo, n + 1 => if p (lo + 2 ^ n) then bisect p (lo + 2 ^ n) n else bisect p lo n

/-- E[k] = round(2^30 × 2^(k/1,024)): the `m` with m − 1/2 ≤ 2^(30 + k/1024) < m + 1/2 (R263). -/
def expTab (k : Nat) : Nat :=
  bisect (fun m => decide ((2 * m - 1) ^ 1024 ≤ 2 ^ (31 * 1024 + k))) 0 32

/-- π × 2^96, rounded. -/
def piQ96 : Nat := 248902613312231085230521944622

/-- The Taylor terms of the sine from term `i` on, in units of 2^-96 (log entry 12). -/
def sinTerms (x2 : Int) : Int → Nat → Nat → Int
  | _, _, 0 => 0
  | t, i, n + 1 => t + sinTerms x2 (-(t * x2 / 2 ^ 96) / ((2 * i + 2) * (2 * i + 3) : Nat)) (i + 1) n

/-- S[k] = round(2^31 × sin(πk/4,096)), with S[2,048] = 0x7FFF_FFFF (R263). -/
def sinTab (k : Nat) : Int :=
  if 2048 ≤ k then 0x7FFFFFFF
  else
    let x : Int := ((piQ96 * k / 4096 : Nat) : Int)
    rnd (sinTerms (x * x / 2 ^ 96) x 0 24) 65

/-- exp2q of R263: 2^x with 32 fractional bits, x in octaves with 24 fractional bits. -/
def exp2q (x : Int) : Nat :=
  let i := x / 2 ^ 24
  let f := (x % 2 ^ 24).toNat
  let k := f / 2 ^ 14
  let t := f % 2 ^ 14
  let m := expTab k + ((expTab (k + 1) - expTab k) * t + 2 ^ 13) / 2 ^ 14
  if 0 ≤ i + 2 then min (m * 2 ^ (i + 2).toNat) (2 ^ 64 - 1)
  else (rnd m (-(i + 2)).toNat).toNat

/-- sinq of R263: sin(2π ph / 2^32) in Q1.31. -/
def sinq (ph : Nat) : Int :=
  let q := ph / 2 ^ 30 % 4
  let a := ph % 2 ^ 30
  let a := if q = 1 ∨ q = 3 then 2 ^ 30 - a else a
  let k : Nat := a / 2 ^ 19
  let t : Nat := a % 2 ^ 19
  let s := if t = 0 then sinTab k
    else sinTab k + ((sinTab (k + 1) - sinTab k) * t + 2 ^ 18) / 2 ^ 19
  if 2 ≤ q then -s else s

/-- xs of R263: one pseudo-random step. -/
def xs (x : Word) : Word :=
  let x := x ^^^ (x <<< 13)
  let x := x ^^^ (x >>> 17)
  x ^^^ (x <<< 5)

/-- floor of the square root, below 2^33. -/
def isqrt (n : Nat) : Nat := bisect (fun m => decide (m * m ≤ n)) 0 33

/-! ### Node words (R262) -/

/-- The eight words of a node. -/
structure NodeW where
  w0 : Word
  w1 : Word
  w2 : Word
  w3 : Word
  w4 : Word
  w5 : Word
  w6 : Word
  w7 : Word
deriving DecidableEq, Repr

def State.nodeAt (s : State) (a : Nat) : NodeW :=
  { w0 := s.word a, w1 := s.word (a + 4), w2 := s.word (a + 8), w3 := s.word (a + 12),
    w4 := s.word (a + 16), w5 := s.word (a + 20), w6 := s.word (a + 24), w7 := s.word (a + 28) }

def State.setNode (s : State) (a : Nat) (n : NodeW) : State :=
  (((((((s.setWord a n.w0).setWord (a + 4) n.w1).setWord (a + 8) n.w2).setWord (a + 12) n.w3).setWord
    (a + 16) n.w4).setWord (a + 20) n.w5).setWord (a + 24) n.w6).setWord (a + 28) n.w7

/-- FIXED with VALUE 0 (R259, R260). -/
def NodeW.zero : NodeW := ⟨0, 0, 0, 0, 0, 0, 0, 0⟩

def NodeW.kind (n : NodeW) : Nat := fld n.w0 31 28
/-- VALUE, Q1.31. -/
def NodeW.value (n : NodeW) : Int := n.w1.toInt
def NodeW.setValue (n : NodeW) (x : Int) : NodeW := { n with w1 := wordI (satS32 x) }

/-- Segment j of an ENV: its 20 bits within W7:W3. -/
def NodeW.segment (n : NodeW) (j : Nat) : Nat :=
  (n.w3.toNat + n.w4.toNat * 2 ^ 32 + n.w5.toNat * 2 ^ 64 + n.w6.toNat * 2 ^ 96 + n.w7.toNat * 2 ^ 128)
    / 2 ^ (20 * j) % 2 ^ 20

/-- Duration in frames of a TIME field (R266). -/
def segFrames (time : Nat) : Nat :=
  if time = 0 then 0 else (16 + time % 16) * 2 ^ (time / 16) / 16

def NodeW.segTime (n : NodeW) (j : Nat) : Nat := n.segment j % 512

/-- Target level of a segment (R266). -/
def NodeW.segLevel (n : NodeW) (j : Nat) : Int :=
  let l := n.segment j / 512
  if l = 2047 then 0x7FFFFFFF else (l : Int) * 2 ^ 20

/-- Entry e of a TRACK table, s11. -/
def NodeW.entry (n : NodeW) (e : Nat) : Int :=
  let bits : Nat := (n.w2.toNat + n.w3.toNat * 2 ^ 32 + n.w4.toNat * 2 ^ 64 + n.w5.toNat * 2 ^ 96 +
    n.w6.toNat * 2 ^ 128 + n.w7.toNat * 2 ^ 160) / 2 ^ (11 * e) % 2 ^ 11
  if bits < 1024 then (bits : Int) else (bits : Int) - 2048

/-- Step j of a SEQ as a byte. -/
def NodeW.step (n : NodeW) (j : Nat) : Nat :=
  let w := match j / 4 with
    | 0 => n.w4
    | 1 => n.w5
    | 2 => n.w6
    | _ => n.w7
  fld w (8 * (j % 4) + 7) (8 * (j % 4))

/-- Source codes that a part node may name (R275). -/
def pinOk (c : Nat) : Bool :=
  decide (c = 0) || (decide (0x11 ≤ c) && decide (c ≤ 0x18)) || (decide (0x30 ≤ c) && decide (c ≤ 0x39))

/-- Source codes that a string may name (R275). -/
def srcOk (c : Nat) : Bool :=
  decide (c ≤ 0x18) || (decide (0x20 ≤ c) && decide (c ≤ 0x28)) || (decide (0x2C ≤ c) && decide (c ≤ 0x39))

/-- The node holds an undefined encoding (R262). -/
def NodeW.bad (n : NodeW) (isPart : Bool) : Bool :=
  let low := fld n.w0 15 8 ≠ 0 ∨ (if isPart then pinOk (fld n.w0 7 0) = false else fld n.w0 7 0 ≠ 0)
  let tail := n.w3 ≠ 0 ∨ n.w4 ≠ 0 ∨ n.w5 ≠ 0 ∨ n.w6 ≠ 0 ∨ n.w7 ≠ 0
  let kindBad : Bool := match n.kind with
    | 0 => decide (fld n.w0 27 16 ≠ 0 ∨ n.w2 ≠ 0 ∨ tail)
    | 1 =>
      isPart || decide (fld n.w0 24 22 < fld n.w0 21 19) ||
      (List.range 8).any fun j => decide (j ≤ fld n.w0 24 22) && decide (21 < n.segTime j / 16)
    | 2 => decide (5 ≤ fld n.w0 27 25 ∨ fld n.w0 23 16 ≠ 0)
    | 3 => decide (fld n.w0 25 16 ≠ 0 ∨ tail)
    | 4 => decide (fld n.w0 27 26 = 3 ∨ fld n.w0 23 16 ≠ 0 ∨ n.w7 ≠ 0)
    | 5 => decide (fld n.w0 27 24 < fld n.w0 23 20)
    | 6 => decide (fld n.w0 26 16 ≠ 0 ∨ fld n.w7 31 27 ≠ 0)
    | _ => true
  decide low || kindBad

/-- A string word holds an undefined encoding (R271, R275, R276). -/
def stringBad (x : Dword) : Bool :=
  let f (hi lo : Nat) : Nat := (x >>> lo).toNat % 2 ^ (hi - lo + 1)
  !srcOk (f 62 55) || !srcOk (f 54 47) || decide (9 < f 46 43) || decide (f 42 40 ≠ 0) || decide (f 33 32 ≠ 0)

/-! ### Advancing a node (R264 to R268) -/

/-- d′ of R265 from the advance and the rate destination's saturated sum. -/
def scaleAdvance (d : Nat) (r : Int) : Nat := min (2 ^ 31) (rnd ((d : Int) * exp2q (r / 16)) 32).toNat

/-- SEG of an ENV. -/
def NodeW.seg (n : NodeW) : Nat := fld n.w0 27 25
/-- DONE of an ENV. -/
def NodeW.envDone (n : NodeW) : Bool := bit n.w0 17
/-- The envelope holds at its sustain segment once REMAIN is 0 (R267). -/
def NodeW.holds (n : NodeW) : Bool := bit n.w0 18 && bit n.w0 16 && decide (n.seg = fld n.w0 21 19)

/-- env_advance of R267. Each turn that loops moves to a later segment, so `fuel` of 8 segments suffices. -/
def envAdvance : Nat → NodeW → Nat → NodeW
  | 0, n, _ => n
  | fuel + 1, n, d =>
    if n.envDone then n
    else if n.holds && decide (n.w2 = 0) then n
    else
      let g := n.segLevel n.seg
      let rem := n.w2.toNat
      if d < rem then
        { n.setValue (n.value + divr ((g - n.value) * d) rem) with w2 := BitVec.ofNat 32 (rem - d) }
      else
        let n := { n.setValue g with w2 := 0 }
        if n.holds then n
        else if n.seg = fld n.w0 24 22 then { n with w0 := n.w0 ||| onebit 17 }
        else
          let n := { n with w0 := setFld n.w0 27 25 (n.seg + 1) }
          envAdvance fuel { n with w2 := BitVec.ofNat 32 (segFrames (n.segTime n.seg) * 256) } (d - rem)

/-- env_gate_off of R267. -/
def envGateOff (n : NodeW) : NodeW :=
  let n := { n with w0 := n.w0 &&& ~~~ onebit 16 }
  let sus := fld n.w0 21 19
  if n.envDone = false ∧ bit n.w0 18 = true ∧ n.seg ≤ sus ∧ sus < fld n.w0 24 22 then
    { n with w0 := setFld n.w0 27 25 (sus + 1),
             w2 := BitVec.ofNat 32 (segFrames (n.segTime (sus + 1)) * 256) }
  else n

/-- conv of R268. -/
def convB (bip : Bool) (b : Int) : Int := if bip then b else b / 2 + 0x40000000

/-- shape of R268, for SHAPE 0 to 4. -/
def lfoShape (shape ph : Nat) : Int :=
  match shape with
  | 0 => sinq ph
  | 1 =>
    let u : Nat := (ph + 0x40000000) % 2 ^ 32
    if u < 2 ^ 31 then 2 * (u : Int) - 2 ^ 31 else 2 ^ 31 - 1 - 2 * ((u : Int) - 2 ^ 31)
  | 2 => (ph : Int) - 2 ^ 31
  | 3 => 2 ^ 31 - 1 - (ph : Int)
  | _ => if ph < 2 ^ 31 then 0x7FFFFFFF else -0x7FFFFFFF

/-- The phase after an advance, and the wraps acted on (R268). -/
def phaseAdvance (phase rate : Word) (d : Nat) : Word × Nat :=
  let t := phase.toNat + (rate.toNat * d + 128) / 256
  (BitVec.ofNat 32 t, min 16 (t / 2 ^ 32))

/-- One wrap of a RAND node (R268). -/
def randWrap (input : Int) (n : NodeW) : NodeW :=
  let bip := bit n.w0 25
  match fld n.w0 27 26 with
  | 0 =>
    let n := { n with w4 := xs n.w4 }
    n.setValue (convB bip n.w4.toInt)
  | 1 => n.setValue input
  | _ =>
    let st := xs n.w4
    { n with w5 := n.w6, w4 := st, w6 := wordI (satS32 (convB bip st.toInt)) }

/-- One wrap of a SEQ node: STEP moves on, or a one-shot ends (R268). -/
def seqWrap (n : NodeW) : NodeW :=
  if bit n.w0 16 then n
  else if fld n.w0 23 20 = fld n.w0 27 24 then
    if bit n.w0 17 then { n with w0 := n.w0 ||| onebit 16, w2 := 0 }
    else { n with w0 := setFld n.w0 23 20 0 }
  else { n with w0 := setFld n.w0 23 20 (fld n.w0 23 20 + 1) }

/-- v(j) of a SEQ step (R268). -/
def seqValue (n : NodeW) (j : Nat) : Int :=
  let b := n.step j
  if bit n.w0 19 then (if b < 128 then (b : Int) else (b : Int) - 256) * 2 ^ 24
  else (b : Int) * 2 ^ 23

/-- Repeats a step of a node. -/
def nTimes {α : Type} (f : α → α) : Nat → α → α
  | 0, x => x
  | n + 1, x => nTimes f n (f x)

/-- The advance of a node by `d` ticks, its input given (R267, R268). FIXED and undefined nodes do not move. -/
def NodeW.advance (n : NodeW) (d : Nat) (input : Int) : NodeW :=
  match n.kind with
  | 1 => envAdvance 9 n d
  | 2 =>
    let w := min d n.w4.toNat
    let n := { n with w4 := n.w4 - BitVec.ofNat 32 w }
    let d := d - w
    let ph := (phaseAdvance n.w2 n.w3 d).1
    let fr := n.w6.toNat - min d n.w6.toNat
    let n := { n with w2 := ph, w6 := BitVec.ofNat 32 fr }
    let b := convB (bit n.w0 24) (lfoShape (fld n.w0 27 25) ph.toNat)
    let ft := n.w5.toNat
    let b := if ft = 0 then b else divr (b * ((ft : Int) - fr)) ft
    n.setValue (if n.w4 = 0 then b else 0)
  | 3 =>
    let t := n.w2.toNat
    if t = 0 then n.setValue input
    else if bit n.w0 27 then
      let lim := divr ((2 : Int) ^ 31 * d) t
      n.setValue (n.value + clampI (input - n.value) (-lim) lim)
    else n.setValue (n.value + divr ((input - n.value) * d) (t + d))
  | 4 =>
    let pw := phaseAdvance n.w2 n.w3 d
    let n := nTimes (randWrap input) pw.2 { n with w2 := pw.1 }
    if fld n.w0 27 26 = 2 then
      n.setValue (n.w5.toInt + rnd ((n.w6.toInt - n.w5.toInt) * pw.1.toNat) 32)
    else n
  | 5 =>
    let n := if bit n.w0 16 then n else
      let pw := phaseAdvance n.w2 n.w3 d
      nTimes seqWrap pw.2 { n with w2 := pw.1 }
    let st := fld n.w0 23 20
    let last := fld n.w0 27 24
    let nx := if st = last then (if bit n.w0 17 then last else 0) else st + 1
    let v := seqValue n st
    n.setValue (if bit n.w0 18 then v + rnd ((seqValue n nx - v) * n.w2.toNat) 32 else v)
  | 6 =>
    let x := if bit n.w0 27 then input / 2 + 0x40000000 else clampI input 0 0x7FFFFFFF
    let i := (x / 2 ^ 27).toNat
    let f := x % 2 ^ 27
    n.setValue (n.entry i * 2 ^ 21 + rnd ((n.entry (i + 1) - n.entry i) * f) 6)
  | _ => n

/-! ### Sources, strings and destinations (R271 to R280) -/

/-- The output of the node at address `a` to a string or the level: 0 when it is undefined (R257). -/
def State.nodeOut (s : State) (a : Nat) (isPart : Bool) : Int :=
  let n := s.nodeAt a
  if n.bad isPart then 0 else n.value

/-- seed of R270. -/
def seedOf (mseed : Word) (g p h i k : Nat) : Word :=
  let b (n : Nat) : Word := BitVec.ofNat 32 n
  let x := mseed ^^^ b g ^^^ b (g / 2 ^ 32) ^^^ (b p <<< 16) ^^^ b h ^^^ (b i <<< 26) ^^^ b (k * 0x9E3779B9)
  let x := xs (xs (xs (xs x)))
  if x = 0 then 0x9E3779B9 else x

/-- The seed of node k of a voice slot's occupant (R270). -/
def State.slotSeed (s : State) (x : Slot) (k : Nat) : Word :=
  seedOf (s.reg Reg.MOD_SEED) x.onset x.part x.handle.toNat x.unison k

/-- Owner of part p. -/
def State.partOwner (s : State) (p : Nat) : Nat := s.rf (Reg.VAL_PART_OWNER p) 31 30

/-- A part's source: a part node, a captured controller, pressure or bend (R275). -/
def State.partSource (s : State) (p c : Nat) : Int :=
  let x := s.part p
  if 0x11 ≤ c ∧ c ≤ 0x18 then s.nodeOut (partNode p (c - 0x11)) true
  else if 0x30 ≤ c ∧ c ≤ 0x37 then ((x.pctl.getD (c - 0x30) 0).toNat / 2 : Nat)
  else if c = 0x38 then (x.press.toNat / 2 : Nat)
  else if c = 0x39 then (x.bend.toNat : Int) - 0x80000000
  else 0x80000000

/-- value(SRC) of R272, for a voice slot's occupant (R275). DESIGN CHOICE, unsafe: the per-note random source is computed at
each evaluation, from MOD_SEED and the handle of that moment (R270; log entry 62). -/
def State.voiceSource (s : State) (v : Nat) (x : Slot) (c : Nat) : Int :=
  if 1 ≤ c ∧ c ≤ 0x10 then s.nodeOut (voiceNode v (c - 1)) false
  else match c with
    | 0x20 => (x.pitch.toNat * 2 ^ 15 : Nat)
    | 0x21 => (x.velocity.toNat * 2 ^ 15 : Nat)
    | 0x22 => if x.gateOff.isSome then (x.relVel.toNat * 2 ^ 15 : Nat) else 0
    | 0x23 => (x.unison * 2 ^ 27 : Nat)
    | 0x24 => if x.unisonMax = 0 then 0 else divr ((2 * (x.unison : Int) - x.unisonMax) * 2 ^ 31) x.unisonMax
    | 0x25 => if x.gateOff.isNone then 0x80000000 else 0
    | 0x26 => (x.press.toNat / 2 : Nat)
    | 0x27 => (x.bend.toNat : Int) - 0x80000000
    | 0x28 => (s.slotSeed x 16).toInt
    | 0x2C => ((x.nctl.getD 0 0).toNat / 2 : Nat)
    | 0x2D => ((x.nctl.getD 1 0).toNat / 2 : Nat)
    | 0x2E => ((x.nctl.getD 2 0).toNat / 2 : Nat)
    | 0x2F => ((x.nctl.getD 3 0).toNat / 2 : Nat)
    | _ => s.partSource x.part c

/-- curve of R276, clamped to −2^31 to 2^31. -/
def curveOf (code : Nat) (x : Int) : Int :=
  let y : Int := match code with
    | 0 => x
    | 1 => 2 ^ 31 - 1 - x
    | 2 => rnd (x * x.natAbs) 31
    | 3 => rnd (x * x * x) 62
    | 4 => if x < 0 then -(isqrt (x.natAbs * 2 ^ 31) : Int) else isqrt (x.natAbs * 2 ^ 31)
    | 5 => if x ≤ 0 then 0 else rnd (exp2q ((x - 2 ^ 31) / 16)) 1
    | 6 => 2 * x - 2 ^ 31
    | 7 => x / 2 + 2 ^ 30
    | 8 => x.natAbs
    | _ => rnd x 24 * 2 ^ 24
  clampI y (-(2 ^ 31)) (2 ^ 31)

/-- The DEPTH factor of R272. -/
def depthOf (w : Word) : Int :=
  let d := fld w 31 16
  if d = 0x7FFF then 2 ^ 15 else if d < 0x8000 then d else (d : Int) - 0x10000

/-- The output of one string, if it is enabled, defined and goes to destination `dst` (R272). -/
def State.stringOut (s : State) (v : Nat) (x : Slot) (dst j : Nat) : Int :=
  let hi := s.word (stringAt v j + 4)
  let lo := s.word (stringAt v j)
  if bit hi 31 = false ∨ fld hi 7 2 ≠ dst ∨ stringBad (hi ++ lo) = true then 0
  else
    let y := curveOf (fld hi 14 11) (s.voiceSource v x (fld hi 30 23))
    let via := fld hi 22 15
    let w := if via = 0 then 2 ^ 31 else s.voiceSource v x via
    rnd (y * depthOf lo * w) 46

/-- The saturated sum of a destination (R273). -/
def State.destSum (s : State) (v : Nat) (x : Slot) (dst : Nat) : Int :=
  satS32 ((List.range 64).foldl (fun a j => a + s.stringOut v x dst j) 0)

/-- inc of R279: turns per frame. -/
def pitchInc (fs : Nat) (x : Int) : Nat :=
  let f69 : Nat := (2 * (2 ^ 48 * 440) + fs) / (2 * fs)
  min 0x7FFFFFFF (rnd ((f69 : Int) * exp2q (divr (x - 69 * 2 ^ 24) 12)) 48).toNat

/-- The format of destination d in MOD_PART_DFMT (R279, R280). -/
def State.destFormat (s : State) (p d : Nat) : Nat :=
  s.rf (Reg.MOD_PART_DFMT p (d / 8)) (4 * (d % 8) + 3) (4 * (d % 8))

/-- The converted value of parameter destination d, the sums given (R279, R280). -/
def State.destValue (s : State) (p : Nat) (sum : Nat → Int) (d : Nat) : Word :=
  let even := d - d % 2
  if s.destFormat p even = 4 then
    let th := pitchInc s.fs (sum even)
    let rr := clampI (sum (even + 1)) 0 0x7FFFFFFF
    let a := if d % 2 = 0 then (th + 0x40000000) % 2 ^ 32 else th
    wordI (rnd (rr * sinq a) 31)
  else
    let x := sum d
    match s.destFormat p d with
    | 1 => BitVec.ofNat 32 (pitchInc s.fs x)
    | 2 => if x ≤ 0 then 0 else wordI (min 0x7FFFFFFF (rnd (exp2q ((x - 2 ^ 31) / 8)) 1))
    | 3 => wordI (clampI (rnd x 24) (-128) 127)
    | _ => wordI x

/-! ### Patch images (R258 to R260, R269) -/

/-- Counts a node or string found undefined (R257, R260). -/
def State.patchErr (s : State) : State := (s.count (Reg.MOD_CNT 0)).modFlag 1

/-- The start actions of a node (R269). -/
def startNode (seed : Word) (unison : Nat) (n : NodeW) : NodeW :=
  match n.kind with
  | 1 =>
    { n with w0 := (setFld (setFld n.w0 27 25 0) 17 17 0) ||| onebit 16,
             w2 := BitVec.ofNat 32 (segFrames (n.segTime 0) * 256) }
  | 2 => { n with w2 := n.w2 + BitVec.ofNat 32 unison * n.w7, w6 := n.w5 }
  | 4 =>
    let st := if bit n.w0 24 then n.w4 else seed
    { n with w4 := st, w6 := wordI (satS32 (convB (bit n.w0 25) (xs st).toInt)) }
  | _ => n

/-- One node of an image, substituted when undefined and given its start actions (R260, R269). -/
def State.loadNode (image v : Nat) (x : Slot) (k : Nat) (s : State) : State :=
  let n := s.nodeAt (image + 32 * k)
  let n := if n.bad false then NodeW.zero else startNode (s.slotSeed x k) x.unison n
  s.setNode (voiceNode v k) n

/-- One string of an image, disabled when undefined: it is then stored as an all-zero word, which the spec does not state
(R260; DESIGN CHOICE, unsafe: log entry 62). -/
def State.loadString (image v j : Nat) (s : State) : State :=
  let w := s.dword (image + 512 + 8 * j)
  s.setDword (stringAt v j) (if stringBad w then 0 else w)

/-- Clears a voice's nodes to FIXED 0 and its strings to disabled (R259). -/
def State.clearPatch (v : Nat) (s : State) : State :=
  (s.clearBytes (voiceNode v 0) 512).clearBytes (stringAt v 0) 512

/-- Loads the patch image of the voice in slot v (R258 to R260, R269): one of a bank that is not its agent's is an access
refused under R340 (R363). The slot's record is already written. -/
def State.patchLoad (s : State) (v : Nat) : State :=
  let x := s.slot v
  let cfg := s.reg (Reg.MOD_PART_PATCH x.part)
  let image := fld cfg 15 0 * 1024
  let b := bankOf image
  let owner := s.partOwner x.part
  let s := s.clearPatch v
  if bit cfg 31 = true ∧ owner ≠ 0 ∧ s.wsOwner b = owner then
    let t := s.wsCount b 128
    let bad := (List.range 16).any (fun k => (t.nodeAt (image + 32 * k)).bad false) ||
      (List.range 64).any (fun j => stringBad (t.dword (image + 512 + 8 * j)))
    let t := iter (State.loadNode image v x) 0 16 t
    let t := iter (State.loadString image v) 0 64 t
    let t := t.setSlot v { t.slot v with sealedPatch := t.wsSealed b, undef := [] }
    if bad then t.patchErr else t
  else
    let s := if bit cfg 31 then s.wsRefuse b else s
    (s.setSlot v { x with endBlk := some x.firstBlk, sealedPatch := false, undef := [] }).patchErr

/-! ### Evaluation (R283 to R290) -/

/-- Counts node k of voice v once after the write that left it undefined (R257). Key 0 to 15 is a node,
16 + j string j. -/
def State.noteVoiceUndef (v key : Nat) (bad : Bool) (s : State) : State :=
  let x := s.slot v
  if bad && !x.undef.contains key then (s.setSlot v { x with undef := key :: x.undef }).patchErr else s

/-- Counts part node k once after the write that left it undefined (R257). -/
def State.notePartUndef (p key : Nat) (bad : Bool) (s : State) : State :=
  let x := s.part p
  if bad && !x.undef.contains key then (s.setPart p { x with undef := key :: x.undef }).patchErr else s

/-- Evaluates node k of part p for a control tick (R264, R268, R283, R284). -/
def State.evalPartNode (p k : Nat) (s : State) : State :=
  let a := partNode p k
  let n := s.nodeAt a
  if n.bad true then s.notePartUndef p k true
  else s.setNode a (n.advance (s.ctick * 256) (satS32 (s.partSource p (fld n.w0 7 0))))

/-- The parts whose OWNER is not none, in ascending order. -/
def State.ownedParts (s : State) : List Nat :=
  (s.listed (Reg.VAL_PART_OWNER 0) 1024 4).filterMap fun e => if fld e.2 31 30 = 0 then none else some e.1

/-- Evaluates every owned part's nodes (R283). -/
def State.evalParts (s : State) : State :=
  s.ownedParts.foldl (fun t p => iter (State.evalPartNode p) 0 8 t) s

/-- A node is reported to end its voice: DONE with VALUE 0 set in this tick (R290). -/
def endReached (before after : NodeW) : Bool :=
  decide (after.kind = 1) && !before.envDone && after.envDone && decide (after.w1 = 0)

/-- Inserts a number into an ascending list. -/
def insertNat (n : Nat) : List Nat → List Nat
  | [] => [n]
  | m :: l => if n ≤ m then n :: m :: l else m :: insertNat n l

/-- A list of numbers in ascending order. -/
def sortNats (l : List Nat) : List Nat := l.foldr insertNat []

/-- An ENV advances from tick `pos` to the tick's end, split at each gate-off onset (R286). -/
def NodeW.throughGates (n : NodeW) (rate input : Int) (last pos : Nat) : List Nat → NodeW
  | [] => n.advance (scaleAdvance (last - pos) rate) input
  | o :: l =>
    let o := max o pos
    NodeW.throughGates (envGateOff (n.advance (scaleAdvance (o - pos) rate) input)) rate input last o l

/-- Evaluates node k of voice v for the control tick at frame `f` (R264 to R269, R286, R290). -/
def State.evalVoiceNode (f v k : Nat) (s : State) : State :=
  let x := s.slot v
  let a := voiceNode v k
  let n := s.nodeAt a
  if n.bad false then s.noteVoiceUndef v k true
  else
    let c := s.ctick
    let rate := s.destSum v x (32 + k)
    let input := s.destSum v x (48 + k)
    let start := if x.fresh then x.onset - f * 256 else 0
    let n0 := if x.fresh ∧ n.kind = 3 ∧ bit n.w0 26 = true then n.setValue input else n
    let offs := sortNats ((x.gates.filter fun g => decide (f * 256 ≤ g) && decide (g < (f + c) * 256)).map fun g => g - f * 256)
    let n1 := if n0.kind = 1 then NodeW.throughGates n0 rate input (c * 256) start offs
      else n0.advance (scaleAdvance (c * 256 - start) rate) input
    let t := s.setNode a n1
    if endReached n n1 ∧ s.rf (Reg.VAL_PART_CFG x.part) 3 0 = k then
      t.setSlot v { t.slot v with endBlk := some ((f + c - 1) / 16) }
    else t

/-- The block of frames of the context for a control tick (R281). -/
def State.frameOfBlock (s : State) (k : Nat) : Nat := 16 * k / max s.ctick 16 % 2

/-- Evaluates voice v for the control tick at frame `f` and makes its publication due (R281, R283, R289). -/
def State.evalVoice (f : Nat) (s : State) (v : Nat) : State :=
  let s := iter (State.evalVoiceNode f v) 0 16 s
  let s := (List.range 64).foldl (fun t j =>
    t.noteVoiceUndef v (16 + j) (stringBad (t.dword (stringAt v j)))) s
  let x := s.slot v
  let sums := (List.range 32).map fun d => s.destSum v x d
  let val (d : Nat) : Word := s.destValue x.part (fun i => sums.getD i 0) d
  let blk := f / 16
  let second := s.ctick = 8 ∧ f % 16 = 8
  let words := if s.ctick = 8 then
      (List.range 16).map fun d => ((if second then d + 16 else d), val d)
    else (List.range 32).map fun d => (d, val d)
  let level := (s.nodeOut (voiceNode v (s.rf (Reg.VAL_PART_CFG x.part) 3 0)) false).toNat / 2 ^ 15
  let old := s.pubs.find? fun q => decide (q.voice = v) && decide (q.blk = blk)
  let held := match (s.ctx v).mig with
    | some m => decide (m.blk ≤ blk)
    | none => false
  let q : PubFrame := match old with
    | some o => { o with words := o.words ++ words, ticks := o.ticks + 1 }
    | none => { voice := v, blk := blk, frameNo := s.frameOfBlock blk, words := words, home := (s.ctx v).home
                heldForCopy := held }
  let s := { s with pubs := (s.pubs.filter fun (o : PubFrame) => !(decide (o.voice = v) && decide (o.blk = blk))) ++ [q] }
  s.setSlot v { s.slot v with level := level, fresh := false }

/-- The slots that the fabric evaluates (R285). -/
def State.liveVoices (s : State) : List Nat :=
  s.slots.filterMap fun e =>
    match e.2.state with
    | .starting => some e.1
    | .active => some e.1
    | .released => some e.1
    | _ => none

/-- The slice that evaluates the voice of a publication (R291). -/
def PubFrame.slice (q : PubFrame) : Nat := q.home / 8

/-- The ticks that a slice evaluation has still to finish: all of its block's while the slice is still in an earlier block,
and else those of the voices that are left to it (R291, R293). -/
def State.ticksLeft (s : State) (m : SliceEval) : Nat :=
  let l := s.pubs.filter fun q => !q.loose && decide (q.slice = m.slice)
  if l.any fun q => decide (q.blk < m.blk) then m.ticks
  else maxOf (fun q => if q.blk = m.blk then q.ticks else 0) l

/-- Counts each slice and each tick that it had not finished in `old`, as the strobe came that opens the next one: each once
(R293). -/
def State.tickOverruns (s old : State) : State :=
  let t := (old.evals.filter fun m => !m.overran).foldl
    (fun t m => iter (fun _ u => (u.count (Reg.MOD_CNT 2)).modFlag 3) 0 (old.ticksLeft m) t) s
  { t with evals := t.evals.map fun m => { m with overran := true } }

/-- The fabric's evaluation of the control tick at frame `f` (R283). -/
def State.fabricTick (f : Nat) (s : State) : State :=
  if s.rb Reg.MOD_CTRL 0 then
    let s := s.evalParts
    s.liveVoices.foldl (State.evalVoice f) s
  else s

/-- Voice v, as it stood in `old`, is evaluated for the tick at frame `f`. -/
def State.evalEarlier (old : State) (f : Nat) (s : State) (v : Nat) : State :=
  let x := s.slot v
  let t := (s.setSlot v (old.slot v)).evalVoice f v
  let y := t.slot v
  t.setSlot v { x with level := y.level, fresh := y.fresh, endBlk := y.endBlk, undef := y.undef }

/-- With an 8-frame tick the voices are evaluated once the events of both ticks have been released: each that still lives for
the first tick at frame `f`, with the values that `old` gave it there, and then for the second (R285, R286, R291). A voice
whose onset lies in the second tick has no part in the first. -/
def State.fabricTwo (old : State) (f : Nat) (s : State) : State :=
  if s.rb Reg.MOD_CTRL 0 then
    let first := s.liveVoices.filter fun v => !((s.slot v).fresh && decide ((f + 8) * 256 ≤ (s.slot v).onset))
    let t := first.foldl (State.evalEarlier old f) { s with parts := old.parts }
    State.fabricTick (f + 8) { t with parts := s.parts }
  else s

/-! ### Publication (R281, R282, R325, R677) -/

/-- A task of voice v for an earlier block that reads frame `fno` of the voice's region runs or is saved on core n (R165,
R282). A late task of the slot's occupant before reads that one's region, which is not reused yet. A publication asks
this of the core where the context lies, which is where it writes. -/
def State.frameRead (s : State) (v blk fno n : Nat) : Bool :=
  let reads (r : TaskRun) : Bool :=
    decide (r.task.tag.toNat / 2 ^ 14 = 0) && decide (r.task.tag.toNat % 8192 = v) &&
    decide (r.task.blk < blk) && decide (r.task.frameNo = fno) && decide (r.task.region = (s.ctx v).base)
  (match (s.core n).run with
   | some r => reads r
   | none => false) || (s.core n).saved.any reads

/-- The address of parameter frame `fno` of context x (R162). -/
def State.frameAddr (s : State) (x fno : Nat) : Nat :=
  let c := s.ctx x
  lmBase c.ve + c.base * 64 + c.size * 64 - 256 + 128 * fno

/-- A context whose frame for the block of a publication is written. One that comes after that of a later block changes
nothing of what was published last (DESIGN CHOICE, unsafe: log entry 62). -/
def Ctx.published (c : Ctx) (q : PubFrame) : Ctx :=
  if c.pubBlk.any (q.blk < ·) then c else { c with pubFrame := q.frameNo, pubBlk := some q.blk }

/-- Writes a publication into the home core's memory (R164, R281). -/
def State.writeFrame (s : State) (q : PubFrame) : State :=
  let a := s.frameAddr q.voice q.frameNo
  let t := q.words.foldl (fun t e => t.setWord (a + 4 * e.1) e.2) s
  let t := t.setCtx q.voice ((t.ctx q.voice).published q)
  { t with pubs := t.pubs.filter fun o => decide (o ≠ q) }

/-- The publications of voice v that were put off and that no task keeps waiting any more, oldest first (R282). -/
def State.overdue (s : State) (v : Nat) : List PubFrame :=
  s.pubs.filter fun q => decide (q.voice = v) && q.deferred && !q.heldForCopy &&
    !s.frameRead v q.blk q.frameNo (s.ctx v).ve

/-- Makes a publication; those of its voice that were put off and have their turn come before it (R165, R282). -/
def State.publish (s : State) (q : PubFrame) : State :=
  ((s.overdue q.voice).foldl State.writeFrame s).writeFrame q

/-- A slice has finished its work for a block: the reference cycles since the strobe that opened it, or, where the slice had no
voices, a free value, the time of its part nodes. DESIGN CHOICE, unsafe: LAST is the latest block's; the time of a block whose
evaluation ends after the next one has opened goes to PEAK alone (R677; log entry 62). -/
def State.endEval (s : State) (m : SliceEval) : State :=
  let r := s.free 16
  let t := if m.voices then s else r.2
  let n := if m.voices then min (s.refTotal - m.opened) 0xFFFF else r.1.toNat
  let t := t.peak (Reg.MOD_TEVAL m.slice) 31 16 n
  if m.blk = s.block then t.setRf (Reg.MOD_TEVAL m.slice) 15 0 n else t

/-- A slice has still to make a publication of the block of an evaluation, or of an earlier one (R291, R293). -/
def State.evalGoesOn (s : State) (m : SliceEval) : Bool :=
  s.pubs.any fun q => !q.loose && decide (q.slice = m.slice) && decide (q.blk ≤ m.blk)

/-- The evaluations that have come to their end are recorded (R677). -/
def State.endEvals (s : State) : State :=
  (s.evals.filter fun m => !s.evalGoesOn m).foldl State.endEval { s with evals := s.evals.filter s.evalGoesOn }

/-- The publications of voice v that are not made yet are given up: its slices go on without them. -/
def State.dropPubs (s : State) (v : Nat) : State :=
  { s with pubs := s.pubs.filter fun q => decide (q.voice ≠ v) }.endEvals

/-- The turn of a publication has come: it is the first that its slice has still to make, or the slice has gone on without
it (R291, R293). -/
def State.hasTurn (s : State) (q : PubFrame) : Bool :=
  q.loose || (match s.pubs.find? fun o => !o.loose && decide (o.slice = q.slice) with
    | some o => decide (o = q)
    | none => false)

/-- Its slice has evaluated a publication that is held for a copy, and goes on (R325). -/
def State.loosen (s : State) (q : PubFrame) : State :=
  { s with pubs := s.pubs.map fun o => if o = q then { o with loose := true } else o }

/-- A publication is put off because an earlier task still reads its frame, and counted (R282). -/
def State.deferFrame (s : State) (q : PubFrame) : State :=
  let t : State := { s with pubs := s.pubs.map fun o => if o = q then { o with deferred := true, loose := true } else o }
  (t.count (Reg.MOD_CNT 1)).modFlag 2

/-- Where a publication of block k stands in its slice's order: by the place of the voice's task in its core's list, then by
core (R291, R313). -/
def State.pubKey (s : State) (k : Nat) (q : PubFrame) : Nat :=
  let n := (s.ctx q.voice).home
  let mine := (s.core n).list.filter fun t => decide (t.tag.toNat / 2 ^ 14 = 0) && decide (t.blk = k)
  (mine.findIdx fun t => decide (t.tag.toNat % 8192 = q.voice)) * 64 + n

/-- Inserts a publication by its key. -/
def insertPub (key : PubFrame → Nat) (q : PubFrame) : List PubFrame → List PubFrame
  | [] => [q]
  | o :: l => if key q ≤ key o then q :: o :: l else o :: insertPub key q l

/-- Puts the publications of block k into the order in which the slices make them, after those of earlier blocks. -/
def State.orderPubs (s : State) (k : Nat) : State :=
  { s with pubs := (s.pubs.filter fun q => decide (q.blk ≠ k)) ++
      (s.pubs.filter fun q => decide (q.blk = k)).foldr (insertPub (s.pubKey k)) [] }

end Sys2Proof.Machine
end

