-- ==== Sys2Proof/Machine/Alloc.lean ====
section
/-! DEFINITION. The allocator: slot states, note events, grants, steals, play modes, tails and cuts (R105 to R142, R675, R676). -/

namespace Sys2Proof.Machine

/-! ### Counts and keys -/

/-- A state that counts as live (R108). -/
def SlotState.live : SlotState → Bool
  | .starting => true
  | .active => true
  | .released => true
  | .dying => true
  | _ => false

/-- STARTING or ACTIVE: the voice sounds with its gate not yet taken off (R131). -/
def SlotState.sounding : SlotState → Bool
  | .starting => true
  | .active => true
  | _ => false

/-- A steal candidate (R125). -/
def SlotState.candidate : SlotState → Bool
  | .active => true
  | .released => true
  | _ => false

/-- The voices of part p that meet a condition, in ascending voice ID. -/
def State.voicesWhere (s : State) (p : Nat) (ok : Slot → Bool) : List Nat :=
  s.slots.filterMap fun e =>
    if e.2.part = p ∧ e.2.state ≠ .free ∧ ok e.2 = true then some e.1 else none

/-- LIVE of part p (R108). -/
def State.live (s : State) (p : Nat) : Nat := (s.voicesWhere p fun x => x.state.live).length

/-- MAX of part p (R110). -/
def State.quotaMax (s : State) (p : Nat) : Nat := min (s.rf (Reg.VAL_PART_QUOTA p) 29 16) s.slotLimit

/-- MIN of part p. -/
def State.quotaMin (s : State) (p : Nat) : Nat := s.rf (Reg.VAL_PART_QUOTA p) 13 0

/-- PRIO of part p. -/
def State.partPrio (s : State) (p : Nat) : Nat := s.rf (Reg.VAL_PART_CFG p) 31 28

/-- STEAL of part p. -/
def State.partSteal (s : State) (p : Nat) : Nat := s.rf (Reg.VAL_PART_CFG p) 27 25

/-- MODE of part p. -/
def State.partMode (s : State) (p : Nat) : Nat := s.rf (Reg.VAL_PART_CFG p) 24 23

/-- DECLICK of part p in frames. -/
def State.declick (s : State) (p : Nat) : Nat := s.rf (Reg.VAL_PART_CFG p) 16 10

/-- Voice slots in use. -/
def State.slotsUsed (s : State) : Nat := sumOf (fun e => if e.2.state = .free then 0 else 1) s.slots

/-- Tail slots in use. -/
def State.tailsUsed (s : State) : Nat := sumOf (fun e => b2n e.2.dying) s.tails

/-- The reserve held for other parts, seen from part p (R124). -/
def State.reserve (s : State) (p : Nat) : Nat :=
  sumOf (fun e => if e.1 = p then 0 else fld e.2 13 0 - s.live e.1) (s.listed (Reg.VAL_PART_QUOTA 0) 1024 4)

/-- Inserts a part by PRIO, then number. -/
def insertPart (key : Nat → Nat) (p : Nat) : List Nat → List Nat
  | [] => [p]
  | q :: l => if key p * 1024 + p ≤ key q * 1024 + q then p :: q :: l else q :: insertPart key p l

/-- The parts that hold voices, by PRIO ascending, then part number ascending. -/
def State.partsByPrio (s : State) : List Nat :=
  ((s.slots.filterMap fun e => if e.2.state = .free then none else some e.2.part).eraseDups).foldr
    (insertPart s.partPrio) []

/-- The first of two candidates under a key, the lower voice ID winning a tie (R128). -/
def lexLess (a b : Nat × Nat × Nat) : Bool :=
  decide (a.1 < b.1) ||
  (decide (a.1 = b.1) && (decide (a.2.1 < b.2.1) || (decide (a.2.1 = b.2.1) && decide (a.2.2 < b.2.2))))

/-- The voice of least key. -/
def argmin (key : Nat → Nat × Nat × Nat) : List Nat → Option Nat
  | [] => none
  | v :: l =>
    match argmin key l with
    | none => some v
    | some w => if lexLess (key w) (key v) then some w else some v

/-- choose_victim of R128 under a policy, among the voices of part q that meet a condition: 0 released-first, 1 quietest,
2 oldest, 3 lowest, 4 highest note. -/
def State.victimAmong (s : State) (ok : Slot → Bool) (q pol : Nat) : Option Nat :=
  let c := s.voicesWhere q ok
  let rel := s.voicesWhere q fun x => ok x && decide (x.state = .released)
  match pol with
  | 0 =>
    if rel.isEmpty then argmin (fun v => ((s.slot v).grantTime, v, 0)) c
    else argmin (fun v => ((s.slot v).gateOff.getD 0, v, 0)) rel
  | 1 => argmin (fun v => ((s.slot v).level, (s.slot v).grantTime, v)) c
  | 3 => argmin (fun v => ((s.slot v).pitch.toNat, (s.slot v).grantTime, v)) c
  | 4 => argmin (fun v => (0xFFFF - (s.slot v).pitch.toNat, (s.slot v).grantTime, v)) c
  | _ => argmin (fun v => ((s.slot v).grantTime, v, 0)) c

/-- choose_victim of R128. -/
def State.chooseVictim (s : State) (q pol : Nat) : Option Nat := s.victimAmong (fun x => x.state.candidate) q pol

/-- victim_policy of R125. -/
def State.victimPolicy (s : State) (q : Nat) : Nat := if s.partSteal q = 5 then 2 else s.partSteal q

/-- Notes a part's highest live count (VAL_PART_LIVE.PEAK). -/
def State.notePeak (s : State) (p : Nat) : State := s.peak (Reg.VAL_PART_LIVE p) 29 16 (s.live p)

/-! ### Freeing and retiring -/

/-- Removes the publications and queued tasks of a voice slot's context. -/
def State.dropQueued (s : State) (x : Nat) : State :=
  let s := s.dropPubs x
  let tag := if x < 8192 then x else 16384 + (x - 8192)
  { s with cores := s.cores.map fun e => (e.1, { e.2 with
      list := e.2.list.filter fun t =>
        decide (t.tag.toNat ≠ tag) && decide (x < 8192 → t.tag.toNat ≠ tag + 8192) }) }

/-- Frees voice slot v and its placement (R112, R319). -/
def State.freeSlot (s : State) (v : Nat) : State :=
  (((s.setSlot v {}).dropQueued v).unplace v).intakeOne

/-- Frees tail slot t; the free enters the intake (R311). -/
def State.freeTail (s : State) (t : Nat) : State :=
  (((s.setTail t {}).dropQueued (8192 + t)).unplace (8192 + t)).intakeOne

/-- A voice task of slot v is queued on some core. -/
def State.voiceQueued (s : State) (v : Nat) : Bool :=
  s.cores.any fun e => e.2.list.any fun t => decide (tagKind t.tag = 0) && decide (tagCtx t.tag = v)

/-- The block for which the occupant of slot v leaves it when it is stolen now: the block that opens, or the block under way
in a steal of DEFERRED_RELEASE. DESIGN CHOICE, unsafe: where the voice's task of the block under way has already been
dispatched that task goes on, and the steal is one for the next block (R98, R138; log entry 36). -/
def State.stealBlock (s : State) (v : Nat) : Nat :=
  if (s.ctx v).tasked = some s.block ∧ s.voiceQueued v = false then s.block + 1 else s.block

/-- Cuts the occupant of slot v: the collector's ramp takes its place and the slot is freed (R138 to R140, R382). -/
def State.cutVoice (s : State) (v : Nat) : State :=
  let p := (s.slot v).part
  let s := s.cutFor v p (s.stealBlock v)
  let s := (s.count (Reg.VAL_CNT 1)).count (Reg.VAL_CNT 2)
  (s.valFlag 1).freeSlot v

/-- The lowest-numbered FREE tail slot (R123). -/
def State.freeTailSlot (s : State) : Option Nat :=
  firstFrom (fun t => !(s.tail t).dying) 0 s.tailLimit

/-- A victim of a steal for a new voice of program g goes to a tail (R134). -/
def State.toTail (s : State) (g : Prog) : Bool :=
  s.rb Reg.VAL_CTRL 1 && s.freeTailSlot.isSome && s.admitsTail g

/-- Moves the occupant of slot v to tail slot t, the stealing note's onset given (R135, R136, R319, R678). The tail's epoch is
the victim's plus 1, from the tail's first block on. DESIGN CHOICE, unsafe: a migration whose copy is under way is abandoned
too, the bytes copied and the cycles charged standing (log entry 62). -/
def State.moveToTail (s : State) (v t onset : Nat) : State :=
  let x := s.slot v
  let c := s.ctx v
  let k := s.stealBlock v
  let past := ((s.ctx (8192 + t)).atEpoch k 0).past
  let tail : Tail := {
    dying := true, part := x.part, voice := v, prog := c.prog,
    rampStart := onset / 256, rampLen := s.declick x.part, frameNo := c.pubFrame }
  let s := s.setTail t tail
  let s := s.setCtx (8192 + t) { c with
    epoch := c.epoch + 1, past := past, mig := none, tasked := if s.block < k then some s.block else none }
  let s := s.count (Reg.VAL_CNT 1)
  (((s.setSlot v {}).dropQueued v).unplace v).intakeOne

/-- retire of R125: to a tail where R134 allows it, else by a cut. -/
def State.retire (s : State) (v onset : Nat) (g : Prog) : State :=
  match s.toTail g, s.freeTailSlot with
  | true, some t => s.moveToTail v t onset
  | _, _ => s.cutVoice v

/-! ### get_slot (R125) -/

/-- The outcome of a search for a slot: the slot taken, the state, and whether a judgement failed on placement
alone (R320). -/
structure Search where
  slot  : Option Nat
  state : State
  placeFail : Bool

/-- Judges admission and placement for a new voice with this victim: ok, and failed on placement alone. -/
def State.judge (s : State) (gnum : Nat) (g : Prog) (victim : Option Nat) : Bool × Bool :=
  let a := s.admits g victim
  let p := s.placeable gnum g victim (s.toTail g)
  (a && p, a && !p)

/-- steal_from of R125, among the voices of part q that meet a condition. -/
def stealFrom (ok : Slot → Bool) (q pol gnum : Nat) (g : Prog) (onset : Nat) (r : Search) : Search :=
  if r.slot.isSome ∨ pol = 5 then r
  else
    match r.state.victimAmong ok q pol with
    | none => r
    | some v =>
      let j := r.state.judge gnum g (some v)
      if j.1 then { r with slot := some v, state := r.state.retire v onset g }
      else { r with placeFail := r.placeFail || j.2 }

/-- The lowest-numbered FREE voice slot (R123). -/
def State.lowestFree (s : State) : Option Nat :=
  firstFrom (fun v => decide ((s.slot v).state = .free)) 0 s.slotLimit

/-- MAX[p] in R125: MIN[p] while supply-sag level 1 or above acts (R623). -/
def State.notesMax (s : State) (p : Nat) : Nat := if 1 ≤ s.sagActed then s.quotaMin p else s.quotaMax p

/-- Every note-on is refused: level 3 acts and its forced release has been made (R623). -/
def State.notesRefused (s : State) : Bool := decide (3 ≤ s.sagActed) && !s.sagRelease

/-- get_slot of R125 for part p and its program. -/
def State.getSlot (s : State) (p gnum : Nat) (g : Prog) (onset : Nat) : Search :=
  let start : Search := { slot := none, state := s, placeFail := false }
  let live := s.live p
  let mn := s.quotaMin p
  let steal (q pol : Nat) (r : Search) : Search := stealFrom (fun x => x.state.candidate) q pol gnum g onset r
  let own (r : Search) : Search := steal p (r.state.partSteal p) r
  if s.notesMax p ≤ live then own start
  else
    let free := s.slotLimit - s.slotsUsed
    let room := decide (0 < free) && (decide (live < mn) || decide (s.reserve p < free))
    let j := s.judge gnum g none
    if room && j.1 then { start with slot := s.lowestFree }
    else
      let start := { start with placeFail := room && j.2 }
      if live < mn then
        own ((s.partsByPrio.filter fun q => decide (q ≠ p) && decide (s.quotaMin q < s.live q)).foldl
          (fun r q => steal q (s.victimPolicy q) r) start)
      else if s.rb (Reg.VAL_PART_CFG p) 18 then
        own ((s.partsByPrio.filter fun q =>
          decide (s.partPrio q < s.partPrio p) && decide (s.quotaMin q < s.live q)).foldl
          (fun r q => steal q (s.victimPolicy q) r) start)
      else own start

/-! ### Granting (R112, R119, R126, R258, R319) -/

/-- A note to be granted: its onset as engine time in ticks. -/
structure Note where
  part   : Nat
  handle : BitVec 16
  pitch  : BitVec 16
  vel    : BitVec 16
  onset  : Nat
deriving DecidableEq, Repr

/-- The slot record of a granted voice (R112, R128, R288, R676). -/
def Note.slot (n : Note) (unison unisonMax : Nat) : Slot :=
  { state := .starting, part := n.part, handle := n.handle, pitch := n.pitch, velocity := n.vel,
    unison := unison, unisonMax := unisonMax, grantTime := n.onset, onset := n.onset,
    firstBlk := n.onset / 4096, fresh := true }

/-- Grants slot v to a voice of a note: recorded, placed and its patch loaded. DESIGN CHOICE, unsafe: UNISON of source 0x24
is the part's at the grant, whatever it becomes later (R275; log entry 62). -/
def State.grant (s : State) (n : Note) (gnum : Nat) (g : Prog) (v u : Nat) : State :=
  let um := s.rf (Reg.VAL_PART_CFG n.part) 22 19
  match s.place v gnum (n.onset / 4096) g with
  | none => s
  | some t =>
    let t := (t.setSlot v (n.slot u um)).count (Reg.VAL_CNT 0)
    ((t.notePeak n.part).intakeOne).patchLoad v

/-- Grants the slot that a search for one voice of a note has obtained, and counts the voice as obtained; a voice without
one is counted when a judgement failed on placement alone (R320). -/
def Search.settle (r : Search) (n : Note) (gnum : Nat) (g : Prog) (u got : Nat) : State × Nat :=
  match r.slot with
  | some v => (r.state.grant n gnum g v u, got + 1)
  | none => (if r.placeFail then r.state.count (Reg.PUP_CNT 3) else r.state, got)

/-- Obtains and grants the voice of unison index u. DESIGN CHOICE, unsafe: the index is that of the attempt, so one is
left out where an earlier voice of the note obtained no slot (R127; log entry 54). -/
def State.grantOne (n : Note) (gnum : Nat) (g : Prog) (u : Nat) (a : State × Nat) : State × Nat :=
  (a.1.getSlot n.part gnum g n.onset).settle n gnum g u a.2

/-- Accounts for a note-on that obtained `got` of `asked` voices (R126). -/
def State.noteOutcome (s : State) (got asked : Nat) : State :=
  if got = 0 then (s.count (Reg.VAL_CNT 3)).valFlag 0
  else if got < asked then s.count (Reg.VAL_CNT 6)
  else s

/-- Grants the voices of a note from unison index `u0` up (R126). -/
def State.grantNote (s : State) (n : Note) (gnum : Nat) (g : Prog) : State :=
  let asked := s.rf (Reg.VAL_PART_CFG n.part) 22 19 + 1
  let r := iter (State.grantOne n gnum g) 0 asked (s, 0)
  r.1.noteOutcome r.2 asked

/-! ### Gates (R112, R116 to R119) -/

/-- Takes the gate of voice v off at an onset: recorded in STARTING, RELEASED from ACTIVE (R112). Of several values of
one tick the last remains (R286). -/
def State.gateOff (s : State) (v onset : Nat) (vel : BitVec 16) : State :=
  let x := s.slot v
  let y := { x with held := false, gateOff := some onset, gates := x.gates ++ [onset], relVel := vel }
  match x.state with
  | .starting => s.setSlot v y
  | .active => s.setSlot v { y with state := .released }
  | _ => s

/-- A NOTE_OFF at voice v: deferred while the part's hold is on, with its release velocity (R112). -/
def State.noteOffVoice (onset : Nat) (vel : BitVec 16) (s : State) (v : Nat) : State :=
  let x := s.slot v
  if (s.part x.part).hold then s.setSlot v { x with held := true, relVel := vel } else s.gateOff v onset vel

/-- Forces voice v into DYING with a ramp in place (R112, R137). Its last published frame stays in place (R285). -/
def State.forceRelease (onset : Nat) (s : State) (v : Nat) : State :=
  let x := s.slot v
  if x.state.sounding || decide (x.state = .released) then
    (s.setSlot v { x with state := .dying, held := false, ramp := some (onset / 256, s.declick x.part) }).dropPubs v
  else s

/-- Sets a part's hold; when it goes off every held voice is released (R118). -/
def State.setHold (s : State) (p : Nat) (on : Bool) (onset : Nat) : State :=
  let s := s.setPart p { s.part p with hold := on }
  if on then s else (s.voicesWhere p fun x => x.held).foldl (fun t v => t.gateOff v onset (t.slot v).relVel) s

/-- PART_RELEASE_ALL (R119). DESIGN CHOICE, unsafe: it also empties the held stack of a mono or legato part, and it gives
release velocity 0, which takes the place of the one a HELD voice has kept (log entry 54). -/
def State.releaseAll (s : State) (p onset : Nat) : State :=
  let s := s.setPart p { s.part p with hold := false, stack := [] }
  (s.voicesWhere p fun x => x.state.sounding).foldl (fun t v => t.gateOff v onset 0) s

/-- PART_CUT_ALL (R119). -/
def State.cutAll (s : State) (p onset : Nat) : State :=
  let s := s.releaseAll p onset
  (s.voicesWhere p fun x => x.state.sounding || decide (x.state = .released)).foldl (State.forceRelease onset) s

/-- The voices of a handle that a NOTE_OFF releases (R116). -/
def State.offTargets (s : State) (p : Nat) (h : BitVec 16) : List Nat :=
  s.voicesWhere p fun x => decide (x.handle = h) && x.state.sounding && !x.held

/-- The voices that a per-note fabric event reaches (R116). -/
def State.noteTargets (s : State) (p : Nat) (h : BitVec 16) : List Nat :=
  let a := s.voicesWhere p fun x => decide (x.handle = h) && x.state.sounding
  if a.isEmpty then s.voicesWhere p fun x => decide (x.handle = h) && decide (x.state = .released) else a

/-- A note event that resolves to no voice (R117). -/
def State.orphan (s : State) : State := s.count (Reg.VAL_CNT 4)

/-- NOTE_OFF in poly mode (R116, R117). -/
def State.polyOff (s : State) (p : Nat) (h vel : BitVec 16) (onset : Nat) : State :=
  let t := s.offTargets p h
  if t.isEmpty then
    if (s.voicesWhere p fun x => decide (x.handle = h) && x.state.sounding).isEmpty then s.orphan else s
  else t.foldl (State.noteOffVoice onset vel) s

/-! ### Play modes (R130 to R133) -/

/-- The held stack with a handle pushed, at most 8, newest first (R130). DESIGN CHOICE, unsafe: a handle already held moves
to the top; the handle of a note that obtains no voice stays (log entry 54). -/
def pushHeld (st : List (BitVec 16 × BitVec 16 × BitVec 16)) (n : Note) :
    List (BitVec 16 × BitVec 16 × BitVec 16) :=
  ((n.handle, n.pitch, n.vel) :: st.filter fun e => decide (e.1 ≠ n.handle)).take 8

/-- The note that voice v was to start renders nothing: its queued tasks go, and what a task of the block under way that has
been dispatched still sends is of an epoch gone by (R46, R132, R676; DESIGN CHOICE, unsafe: log entry 36). -/
def State.withdraw (s : State) (v : Nat) : State :=
  let t := s.dropQueued v
  if s.stealBlock v = s.block then t else t.setCtx v ((t.ctx v).nextEpoch t.block)

/-- The STARTING voices of a mono part take over a new note in place: the earlier note renders nothing (R132). DESIGN CHOICE,
unsafe: their per-note values and detach start as at a grant (R288; log entry 54). -/
def State.takeOver (n : Note) (s : State) (v : Nat) : State :=
  let x := s.slot v
  ((s.withdraw v).setSlot v { n.slot x.unison x.unisonMax with level := x.level }).patchLoad v

/-- The steal of a sounding ACTIVE voice by a new mono note (R131): the victim is the one that STEAL chooses among the ACTIVE
voices, and under "refuse" there is none (R125). DESIGN CHOICE, unsafe: log entry 54. -/
def State.stealSounding (s : State) (n : Note) (gnum : Nat) (g : Prog) : Search :=
  stealFrom (fun x => decide (x.state = .active)) n.part (s.partSteal n.part) gnum g n.onset
    { slot := none, state := s, placeFail := false }

/-- Obtains the voice of unison index u for a mono note. While the part has a voice in ACTIVE that voice is stolen or none is
obtained; once it has none another slot is sought (R125, R130, R131, R320). -/
def State.monoOne (n : Note) (gnum : Nat) (g : Prog) (u : Nat) (a : State × Nat) : State × Nat :=
  if (a.1.voicesWhere n.part fun x => decide (x.state = .active)).isEmpty then
    (a.1.getSlot n.part gnum g n.onset).settle n gnum g u a.2
  else (a.1.stealSounding n gnum g).settle n gnum g u a.2

/-- The same where voices in STARTING have been taken over in place: an ACTIVE voice is stolen for an index that none of
those carries, and no other slot is sought (R131, R132). -/
def State.monoBeside (taken : List Nat) (n : Note) (gnum : Nat) (g : Prog) (u : Nat) (a : State × Nat) : State × Nat :=
  if taken.contains u then a else (a.1.stealSounding n gnum g).settle n gnum g u a.2

/-- A mono part plays a new note (R131, R132). Voices in STARTING are taken over, and ACTIVE ones stolen, up to UNISON + 1 in
all; an ACTIVE voice that is not stolen stays as it is (R112). DESIGN CHOICE, unsafe: a voice taken over counts as one that
the note has obtained, so the note is short where both kinds together are fewer than UNISON + 1 (R126; log entry 54). -/
def State.monoNote (s : State) (n : Note) (gnum : Nat) (g : Prog) : State :=
  let asked := s.rf (Reg.VAL_PART_CFG n.part) 22 19 + 1
  let starting := s.voicesWhere n.part fun x => decide (x.state = .starting)
  let active := s.voicesWhere n.part fun x => decide (x.state = .active)
  if !starting.isEmpty then
    let taken := starting.map fun v => (s.slot v).unison
    let r := iter (State.monoBeside taken n gnum g) 0 asked (starting.foldl (State.takeOver n) s, starting.length)
    r.1.noteOutcome r.2 asked
  else if active.isEmpty then s.grantNote n gnum g
  else
    let r := iter (State.monoOne n gnum g) 0 asked (s, 0)
    r.1.noteOutcome r.2 asked

/-- A legato change at one voice: the changes of blocks gone by are forgotten. -/
def Slot.legatoTo (x : Slot) (n : Note) (block : Nat) : Slot :=
  { x with handle := n.handle, pitch := n.pitch
           legatos := (x.legatos.filter fun o => decide (block ≤ o / 4096)) ++ [n.onset] }

/-- A legato change of the sounding voices (R131, R286). -/
def State.legatoChange (s : State) (n : Note) : State :=
  (s.voicesWhere n.part fun x => x.state.sounding).foldl (fun t v => t.setSlot v ((t.slot v).legatoTo n t.block)) s

/-- Plays a note of a mono or legato part (R131). -/
def State.playHeld (s : State) (n : Note) (gnum : Nat) (g : Prog) : State :=
  if s.partMode n.part = 2 ∧ !(s.voicesWhere n.part fun x => x.state.sounding).isEmpty then s.legatoChange n
  else s.monoNote n gnum g

/-- The voice program of part p, when VALID names a stored one (R120). -/
def State.partProgram (s : State) (p : Nat) : Option (Nat × Prog) :=
  let w := s.reg (Reg.VAL_PART_PROG p)
  if bit w 31 then
    match s.prog (fld w 15 0) with
    | some g => if g.kind = 1 then some (fld w 15 0, g) else none
    | none => none
  else none

/-- A note-on that supply sag refuses, or whose part has no valid program, is discarded and counted (R120, R623); any other
goes on as given. DESIGN CHOICE, unsafe: one without a program counts in VAL_CNT_NOPROG alone, and sets VAL_STAT.REFUSED
(R142; log entry 62). -/
def State.noteJudged (s : State) (p : Nat) (go : Nat → Prog → State) : State :=
  if s.notesRefused then s.noteOutcome 0 1
  else
    match s.partProgram p with
    | none => (s.count (Reg.VAL_CNT 7)).valFlag 0
    | some (gnum, g) => go gnum g

/-- NOTE_ON (R120, R121, R130, R131, R623). -/
def State.noteOn (s : State) (n : Note) : State :=
  s.noteJudged n.part fun gnum g =>
    let s := (s.voicesWhere n.part fun x => decide (x.handle = n.handle) && x.state.sounding).foldl
      (fun t v => t.gateOff v n.onset 0) s
    if s.partMode n.part = 0 then s.grantNote n gnum g
    else
      let p := s.part n.part
      let s := s.setPart n.part { p with stack := pushHeld p.stack n }
      s.playHeld n gnum g

/-- The voices that a NOTE_OFF of a mono or legato part still finds sounding under its handle are released. -/
def State.restOff (s : State) (p : Nat) (h vel : BitVec 16) (onset : Nat) : State :=
  (s.offTargets p h).foldl (State.noteOffVoice onset vel) s

/-- The return from a sounding handle to the most recent held one: a legato change, or a new note-on (R133), after which the
voices that were not stolen for it are released by their own NOTE_OFF (R112, R116). DESIGN CHOICE, unsafe: log entry 54. -/
def State.heldReturn (s : State) (h vel : BitVec 16) (n : Note) : State :=
  if s.partMode n.part = 2 then s.legatoChange n
  else (s.noteJudged n.part fun gnum g => s.monoNote n gnum g).restOff n.part h vel n.onset

/-- The sounding handle of a mono or legato part: the most recent held one that voices in STARTING or ACTIVE carry (R131,
R133). -/
def State.soundingHandle (s : State) (p : Nat) : Option (BitVec 16) :=
  ((s.part p).stack.find? fun e => !(s.voicesWhere p fun x => decide (x.handle = e.1) && x.state.sounding).isEmpty).map (·.1)

/-- NOTE_OFF in mono and legato modes (R133). DESIGN CHOICE, unsafe: of a held handle that is not the sounding one the NOTE_OFF
releases the voices that are left, and it is not counted as an orphan where there are none (log entry 54). -/
def State.heldOff (s : State) (p : Nat) (h vel : BitVec 16) (onset : Nat) : State :=
  let x := s.part p
  let sounds := decide (s.soundingHandle p = some h)
  if x.stack.any fun e => decide (e.1 = h) then
    let rest := x.stack.filter fun e => decide (e.1 ≠ h)
    let s := s.setPart p { x with stack := rest }
    match rest with
    | [] => s.restOff p h vel onset
    | e :: _ =>
      if sounds then
        s.heldReturn h vel { part := p, handle := e.1, pitch := e.2.1, vel := e.2.2, onset := onset }
      else s.restOff p h vel onset
  else s.polyOff p h vel onset

/-- NOTE_OFF (R116, R133). -/
def State.noteOff (s : State) (p : Nat) (h vel : BitVec 16) (onset : Nat) : State :=
  if s.partMode p = 0 then s.polyOff p h vel onset else s.heldOff p h vel onset

/-- NOTE_CUT (R112, R116). DESIGN CHOICE, unsafe: it takes its handle from the held stack, and no older handle returns (log
entry 54). -/
def State.noteCut (s : State) (p : Nat) (h : BitVec 16) (onset : Nat) : State :=
  let t := s.voicesWhere p fun x =>
    decide (x.handle = h) && (x.state.sounding || decide (x.state = .released))
  let x := s.part p
  let s := s.setPart p { x with stack := x.stack.filter fun e => decide (e.1 ≠ h) }
  if t.isEmpty then s.orphan else t.foldl (State.forceRelease onset) s

/-! ### Per-note and part values (R287, R288) -/

/-- Applies a change to every voice that a per-note event reaches, unless it is detached (R116, R117, R288). -/
def State.perNote (s : State) (p : Nat) (h : BitVec 16) (f : Slot → Slot) : State :=
  let t := s.noteTargets p h
  if t.isEmpty then s.orphan
  else t.foldl (fun u v => if (u.slot v).detached then u else u.setSlot v (f (u.slot v))) s

/-- Replaces entry i of a list. -/
def setAt {α : Type} : List α → Nat → α → List α
  | [], _, _ => []
  | _ :: l, 0, y => y :: l
  | x :: l, n + 1, y => x :: setAt l n y

/-- Stores a per-note controller in every captured entry that names it (R288). -/
def State.captureNote (s : State) (p : Nat) (assignable : Bool) (value : Word) (x : Slot) : Slot :=
  (List.range 4).foldl (fun x i =>
    let w := s.reg (Reg.MOD_PART_NSEL p (i / 2))
    let o := 16 * (i % 2)
    if bit w (15 + o) = true ∧ bit w (8 + o) = assignable ∧ fld w (7 + o) o = fld value 31 24 then
      { x with nctl := setAt x.nctl i (value <<< 8) }
    else x) x

/-- NOTE_MGMT at one voice (R288). -/
def Slot.manage (x : Slot) (value : Word) : Slot :=
  let x := if bit value 0 then { x with press := 0, bend := 0x80000000, nctl := [0, 0, 0, 0] } else x
  if bit value 1 then { x with detached := true } else x

/-- PART_CTRL: the matching captured controllers and the hold pedal (R118, R287). -/
def State.partCtrl (s : State) (p : Nat) (h : BitVec 16) (value : Word) (onset : Nat) : State :=
  let s := iter (fun i t =>
    let w := t.reg (Reg.MOD_PART_CSEL p (i / 2))
    let o := 16 * (i % 2)
    if fld w (15 + o) (14 + o) = h.toNat / 2 ^ 14 ∧ fld w (13 + o) o = h.toNat % 2 ^ 14 ∧ h.toNat / 2 ^ 14 ≠ 3 then
      t.setPart p { t.part p with pctl := setAt (t.part p).pctl i value }
    else t) 0 8 s
  if h.toNat = 64 ∧ s.rb (Reg.VAL_PART_CFG p) 17 = true then
    s.setHold p (decide (0x80000000 ≤ value.toNat)) onset
  else s

/-! ### Block ends (R112 to R114, R136, R676) -/

/-- Slot v at the strobe that closes the voice stage of block k. -/
def State.slotBlockEnd (k : Nat) (s : State) (v : Nat) : State :=
  let x := s.slot v
  let ended := match x.endBlk with
    | some b => decide (b ≤ k)
    | none => false
  match x.state with
  | .free => s
  | .starting =>
    if k < x.firstBlk then s
    else if ended then s.freeSlot v
    else if x.gateOff.isSome then s.setSlot v { x with state := .released, held := false }
    else s.setSlot v { x with state := .active }
  | .active => if ended then s.freeSlot v else s
  | .released => if ended then s.freeSlot v else s
  | .dying =>
    match x.ramp with
    | some (f, l) => if (f + l - 1) / 16 ≤ k then s.freeSlot v else s
    | none => s.freeSlot v
  | .faulted => s.freeSlot v

/-- Tail t at the end of block k (R136, R333). -/
def State.tailBlockEnd (k : Nat) (s : State) (t : Nat) : State :=
  let x := s.tail t
  if x.dying ∧ (x.faulted ∨ (x.rampStart + x.rampLen - 1) / 16 ≤ k) then s.freeTail t else s

/-- Every slot and tail at the end of block k. -/
def State.blockEnds (s : State) (k : Nat) : State :=
  let s := (s.slots.map (·.1)).foldl (State.slotBlockEnd k) s
  (s.tails.map (·.1)).foldl (State.tailBlockEnd k) s

/-- A slot's task faulted: its last published frame stays in place (R112, R285). -/
def State.slotFault (s : State) (v : Nat) : State :=
  let x := s.slot v
  if x.state = .free ∨ x.state = .faulted then s
  else (((s.setSlot v { x with state := .faulted, ramp := none }).dropPubs v).count (Reg.VAL_CNT 5)).valFlag 2

/-- Every slot and tail becomes FREE without a ramp (R112, R455). -/
def State.freeAll (s : State) : State :=
  let s := (s.slots.map (·.1)).foldl State.freeSlot s
  (s.tails.map (·.1)).foldl State.freeTail s

/-! ### The actions before the released events (R675) -/

/-- Steps 1 and 2 of R675: the parts written to none, then those of a reset port. -/
def State.partActions (f : Nat) (s : State) : State :=
  let s := (s.parts.map (·.1)).foldl (fun t p =>
    if (t.part p).cutAll then (t.setPart p { t.part p with cutAll := false }).cutAll p (f * 256) else t) s
  (s.parts.map (·.1)).foldl (fun t p =>
    if (t.part p).relAll then (t.setPart p { t.part p with relAll := false }).releaseAll p (f * 256) else t) s

/-- Cuts voices of part q until the cost sum is within A, down to `floor` live voices (R41). -/
def State.shedPart (floor : Nat → Nat) : Nat → State → Nat → State
  | 0, s, _ => s
  | fuel + 1, s, q =>
    if s.costSum ≤ s.budget ∨ s.live q ≤ floor q then s
    else
      match s.chooseVictim q (s.victimPolicy q) with
      | none => s
      | some v => State.shedPart floor fuel (s.cutVoice v) q

/-- Step 4 of R675: steals that bring the cost sum within A (R41, R42). -/
def State.budgetSteals (s : State) : State :=
  if s.costSum ≤ s.budget then s
  else
    let s := s.partsByPrio.foldl (State.shedPart s.quotaMin 8192) s
    s.partsByPrio.foldl (State.shedPart (fun _ => 0) 8192) s

/-! ### Supply sag (R623) -/

/-- Cuts voices of part q until LIVE = MIN. -/
def State.sagCutPart : Nat → State → Nat → State
  | 0, s, _ => s
  | fuel + 1, s, q =>
    if s.live q ≤ s.quotaMin q then s
    else
      match s.chooseVictim q (s.victimPolicy q) with
      | none => s
      | some v => State.sagCutPart fuel (s.cutVoice v) q

/-- The parts that hold voices, in ascending part number. -/
def State.partsWithVoices (s : State) : List Nat :=
  (List.range 1024).filter fun p => s.slots.any fun e => decide (e.2.part = p) && e.2.state.live

/-- The cuts of level 2 at the first control tick. -/
def State.sagCuts (s : State) : State :=
  if s.sagCut then s.partsWithVoices.foldl (State.sagCutPart 8192) { s with sagCut := false } else s

/-- The forced release of level 3: every STARTING, ACTIVE or RELEASED voice enters DYING at the block's first frame. -/
def State.sagForce (s : State) : State :=
  if s.sagRelease then
    s.partsWithVoices.foldl (fun t p => t.cutAll p (16 * t.block * 256)) { s with sagRelease := false }
  else s

end Sys2Proof.Machine
end

