-- ==== Sys2Proof/Machine/Puppet.lean ====
section
/-! DEFINITION. The Puppeteer: tasks and tags, readiness, dispatch and pre-emption, drops and misses, fixed tasks,
migration, compaction and residency (R301 to R336, R678). -/

namespace Sys2Proof.Machine

/-! ### Tags and tasks (R301 to R304) -/

/-- The tag of a voice task. -/
def voiceTag (v : Nat) (p0 : Bool) : BitVec 16 := BitVec.ofNat 16 (v + (if p0 then 0x2000 else 0))
/-- The tag of a tail task. -/
def tailTag (t : Nat) : BitVec 16 := BitVec.ofNat 16 (0x4000 + t)
/-- The tag of a fixed task. -/
def fixedTag (t : Nat) : BitVec 16 := BitVec.ofNat 16 (0x8000 + t)
/-- The tag of a device kernel. -/
def kernelTag (k : Nat) : BitVec 16 := BitVec.ofNat 16 (0xC000 + k)

/-- Two tags name the same context or entry. -/
def sameContext (a b : BitVec 16) : Bool :=
  decide (tagKind a = tagKind b) &&
    (if tagKind a = 0 then decide (a.toNat % 8192 = b.toNat % 8192) else decide (a = b))

/-- A task of the context or entry of a tag is running or saved somewhere (R302). -/
def State.tagActive (s : State) (tag : BitVec 16) : Bool :=
  s.cores.any fun e => e.2.active.any fun r => sameContext r.task.tag tag

/-- A task of the context or entry of a tag is queued, running or saved. -/
def State.tagPresent (s : State) (tag : BitVec 16) : Bool :=
  s.tagActive tag || s.cores.any fun e => e.2.list.any fun t => sameContext t.tag tag

/-- Appends a task to a core's list. -/
def State.addTask (s : State) (n : Nat) (t : Task) : State :=
  let c := s.core n
  let c := { c with list := c.list ++ [t] }
  (s.setCore n c).peak (Reg.PUP_QDEPTH n) 24 16 c.depth

/-! ### The intake (R53, R311) -/

/-- The ready list of every core in service is full. -/
def State.listsFull (s : State) : Bool :=
  let on := s.cores.filter fun e => decide (e.2.st ≠ .off)
  !on.isEmpty && on.all fun e => decide (256 ≤ e.2.depth)

/-- The Puppeteer has drained its intake by the next strobe, unless every list is full and the intake holds (R53, R311). -/
def State.drainIntake (s : State) : State := if s.listsFull then s else { s with intake := 0 }

/-! ### Creation (R301, R331, R676) -/

/-- The task of a voice for block k is a note-start task (R301, R331). -/
def State.startsNote (s : State) (k v : Nat) : Bool := decide (k = (s.slot v).firstBlk) || (s.slot v).owesFirst

/-- The task of a voice for block k. -/
def State.createVoice (k : Nat) (s : State) (v : Nat) : State :=
  let x := s.slot v
  let c := s.ctx v
  if x.state = .free ∨ x.state = .faulted ∨ c.placed = false ∨ k < x.firstBlk ∨ c.tasked = some k then s
  else
    let p0 := s.startsNote k v
    let t : Task := {
      tag := voiceTag v p0, level := if p0 then 0 else 2, blk := k, prog := c.prog, epoch := c.epoch,
      region := c.homeBase, size := c.size, part := x.part }
    (s.setCtx v { c with tasked := some k }).addTask c.home t

/-- The task of a tail for block k. -/
def State.createTail (k : Nat) (s : State) (t : Nat) : State :=
  let x := s.tail t
  let c := s.ctx (8192 + t)
  if x.dying = false ∨ x.faulted ∨ c.placed = false ∨ c.tasked = some k then s
  else
    let u : Task := {
      tag := tailTag t, level := 2, blk := k, prog := c.prog, epoch := c.epoch, region := c.base, size := c.size,
      ramp := some (x.rampStart, x.rampLen), frameNo := x.frameNo, part := x.part }
    (s.setCtx (8192 + t) { c with tasked := some k }).addTask c.ve u

/-- Every voice's and tail's task for block k that does not exist yet, in the order of dispatch: the note-start tasks first
(R291, R313). -/
def State.createTasks (s : State) (k : Nat) : State :=
  let vs := s.slots.map (·.1)
  let s := ((vs.filter (s.startsNote k)) ++ vs.filter fun v => !s.startsNote k v).foldl (State.createVoice k) s
  (s.tails.map (·.1)).foldl (State.createTail k) s

/-- A task of a fixed entry. -/
def State.fixedTask (s : State) (k lvl t : Nat) : Task :=
  { tag := fixedTag t, level := lvl, blk := k, prog := s.taskProg t,
    region := s.rf (Reg.PUP_TASK_MEM t) 10 0, size := s.rf (Reg.PUP_TASK_MEM t) 26 16 }

/-- The P1 tasks of block k: one for each entry whose enable is in effect (R301, R308). -/
def State.createBus (s : State) (k : Nat) : State :=
  s.taskOn.foldl (fun u t => if u.taskP1 t then u.addTask (u.taskVe t) (u.fixedTask k 1 t) else u) s

/-- Core n has the program of a task. -/
def State.taskResident (s : State) (n : Nat) (t : Task) : Bool := (s.core n).hasProg t.prog

/-- The task of a background entry whose RUN is 1: it is ready at once (R301, R312). -/
def State.createBackground (s : State) (t : Nat) : State :=
  if s.taskP1 t ∨ s.rb (Reg.PUP_TASK_CFG t) 1 = false ∨ s.taskOn.contains t = false ∨
      s.tagPresent (fixedTag t) = true then s
  else
    ({ s with readySeq := s.readySeq + 1 }).addTask (s.taskVe t)
      { s.fixedTask s.block 3 t with ready := true, stamp := some (s.readySeq, s.refTotal) }

/-! ### Readiness (R26, R312) -/

/-- The block in which the control tick that contains block k starts. -/
def State.tickBlock (s : State) (k : Nat) : Nat := k - k % (max s.ctick 16 / 16)

/-- The fabric has published the frame that voice v reads for block k (R26). A voice in DYING keeps its last
frame (R285). -/
def State.framePublished (s : State) (v k : Nat) : Bool :=
  decide ((s.slot v).state = .dying) || decide ((s.ctx v).pubBlk = some (s.tickBlock k))

/-- A queued task on core n has all it waits for (R312, R335). A fixed task waits for no residency. -/
def State.canReady (s : State) (n : Nat) (t : Task) : Bool :=
  match tagKind t.tag with
  | 0 =>
    let v := t.tag.toNat % 8192
    s.taskResident n t && (s.ctx v).mig.isNone && s.framePublished v t.blk
  | 1 => s.taskResident n t && decide (16 * t.blk ≤ s.frame)
  | _ => if t.level = 1 then t.inputsIn else true

/-- Stamps the queued tasks of core n that have all they wait for from this instant on: its number, and the reference
cycle (R313). -/
def State.stampCore (s : State) (n : Nat) : State :=
  let c := s.core n
  s.setCore n { c with list := c.list.map fun t =>
    if t.stamp.isNone && s.canReady n t then { t with stamp := some (s.readySeq, s.refTotal) } else t }

/-- One arbitration instant: every task that has just got all it waits for takes the same number (R313). -/
def State.stampAll (s : State) : State :=
  let t := (s.cores.map (·.1)).foldl State.stampCore s
  { t with readySeq := s.readySeq + 1 }

/-- Closes ranks early after a task has ended or has delivered its contribution, whatever strobe is next (R374). -/
def State.closeEarly (s : State) : State := s.closeBuses.stampAll

/-- Makes the first queued task with this tag ready, if it has all it waits for. -/
def State.readyTag (s : State) (n : Nat) (tag : BitVec 16) : State :=
  let s := s.stampAll
  let c := s.core n
  match c.listed.find? fun t => decide (t.tag = tag) && !t.ready && t.stamp.isSome with
  | none => s
  | some t => s.setCore n { c with list := c.list.map fun x => if x = t then { t with ready := true } else x }

/-! ### Dispatch and pre-emption (R302, R313 to R316, R334) -/

/-- Supply sag holds a task back (R334, R623, R625): from level 1 on every P3 task, saved ones too; at level 2 the P1
tasks with SHED = 1 that have not been dispatched, from level 3 on all of those. -/
def State.sagHolds (s : State) (t : Task) (saved : Bool) : Bool :=
  (decide (t.level = 3) && (decide (1 ≤ s.sagActed) || decide (3 ≤ s.sagHeld))) ||
  (decide (t.level = 1) && !saved &&
    (decide (3 ≤ s.sagHeld) || (decide (2 ≤ s.sagHeld) && s.rb (Reg.PUP_TASK_CFG (t.tag.toNat % 256)) 30)))

/-- A voice or tail task still runs or is saved in the region of a queued one: that of the context's block before, which for
a tail may be its victim's (R302). -/
def Core.regionBusy (c : Core) (t : Task) : Bool :=
  decide (t.tag.toNat < 2 ^ 15) && c.taskRegions.any fun r => overlaps r.1 r.2 t.region t.size

/-- A queued task may be dispatched now. DESIGN CHOICE, safe: it waits in its list while its program is not on the core, which
for a fixed task R312 does not ask of its readiness (log entry 57). -/
def State.canStart (s : State) (c : Core) (t : Task) : Bool :=
  t.ready && c.hasProg t.prog && !s.tagActive t.tag && !c.regionBusy t && !s.sagHolds t false

/-- Task t became ready before task u, or at the same instant with a lower tag (R313). -/
def Task.before (t u : Task) : Bool :=
  let n (x : Task) : Nat := (x.stamp.map (·.1)).getD 0
  decide (n t < n u) || (decide (n t = n u) && decide (t.tag.toNat < u.tag.toNat))

/-- The ready task of a level that became ready first (R313). -/
def State.firstReady (s : State) (c : Core) (level : Nat) : Option Task :=
  (c.listed.filter fun t => decide (t.level = level) && s.canStart c t).foldl (fun b t =>
    match b with
    | none => some t
    | some u => if t.before u then some t else some u) none

/-- The saved task of a level that resumes: the newest (R249, R314). -/
def State.firstSaved (s : State) (c : Core) (level : Nat) : Option TaskRun :=
  c.saved.find? fun r => decide (r.task.level = level) && !s.sagHolds r.task true

/-- What a core runs next. -/
inductive Pick where
  | nothing
  | resume (r : TaskRun)
  | start (t : Task)

/-- The task that R314 chooses among levels up to `lim`. -/
def State.pick (s : State) (c : Core) (lim : Nat) : Pick :=
  (List.range (lim + 1)).foldl (fun b l =>
    match b with
    | .nothing =>
      match s.firstSaved c l, s.firstReady c l with
      | some r, _ => .resume r
      | none, some t => .start t
      | none, none => .nothing
    | p => p) .nothing

/-- An offset in ticks from the first frame of block k, or 0xFFFF_FFFF (R151); `owed` is what a dropped block
still owes (R331). -/
def entryOffset (k : Nat) (t : Option Nat) (owed : Bool) : Word :=
  match t with
  | some x => if x / 4096 = k then BitVec.ofNat 32 (x % 4096) else if owed then 0 else 0xFFFFFFFF
  | none => if owed then 0 else 0xFFFFFFFF

/-- The last of several onsets that lie in block k (R151). -/
def lastIn (k : Nat) (l : List Nat) : Option Nat := (l.filter fun o => decide (o / 4096 = k)).getLast?

/-- Writes a global register. -/
def Arch.setG (a : Arch) (n : Nat) (v : Word) : Arch := { a with g := tput 0 a.g n v }

/-- Puts values into G1 up. -/
def Arch.withG1 (a : Arch) (vs : List Word) : Arch :=
  (vs.zipIdx).foldl (fun t e => t.setG (e.2 + 1) e.1) a

/-- P0 and B0 at entry. -/
def Arch.withBase (a : Arch) (n : Nat) (v : Nat) : Arch :=
  let w : Word := BitVec.ofNat 32 v
  { a with ptr := tput 0 (tput 0 a.ptr n w) (8 + n) w }

/-- The registers at the first bundle of a voice task (R151, R331). DESIGN CHOICE, unsafe: of several gate-offs or legato
changes in one block it shows the last, and G5[1] is 1 also where G6 is 0 for the change of a dropped block, which R331 does
not list (log entry 62). -/
def State.voiceEntry (s : State) (t : Task) : Arch :=
  let v := t.tag.toNat % 8192
  let x := s.slot v
  let start := t.blk * 4096
  let on := decide (x.onset ≤ start) && x.gates.all fun g => decide (start < g)
  let leg := entryOffset t.blk (lastIn t.blk x.legatos) x.owesLeg
  let first := decide (t.blk = x.firstBlk) || x.owesFirst
  let g5 := x.unison * 16 + 4 * b2n on + 2 * b2n (decide (leg ≠ 0xFFFFFFFF)) + b2n first
  (({} : Arch).withBase 0 (t.region * 64)).withG1
    [BitVec.ofNat 32 (x.part * 65536 + v), BitVec.ofNat 32 t.blk, entryOffset t.blk (some x.onset) x.owesOnset,
     entryOffset t.blk (lastIn t.blk x.gates) x.owesGate, BitVec.ofNat 32 g5, leg]

/-- The registers at the first bundle of a tail task (R151). -/
def tailEntry (t : Task) : Arch :=
  (({} : Arch).withBase 0 (t.region * 64)).withG1
    [BitVec.ofNat 32 (t.part * 65536 + 0x4000 + t.tag.toNat % 256), BitVec.ofNat 32 t.blk, 0xFFFFFFFF, 0xFFFFFFFF,
     0x100, 0xFFFFFFFF]

/-- The registers at the first bundle of a fixed task (R305). -/
def State.fixedEntry (s : State) (t : Task) : Arch :=
  let g2 := if t.level = 1 then t.blk else tget 0 s.runs (t.tag.toNat % 256)
  ((({} : Arch).withBase 0 (t.region * 64)).withBase 1 ((t.region + t.size) * 64 - 256)).withG1
    [t.tag.setWidth 32, BitVec.ofNat 32 g2]

/-- The registers at entry. -/
def State.entryArch (s : State) (t : Task) : Arch :=
  match tagKind t.tag with
  | 0 => s.voiceEntry t
  | 1 => tailEntry t
  | _ => s.fixedEntry t

/-- A task as it is dispatched: its program's length, trap entry and cost, the frame that PFR reads and the ramp that sends
apply (R188, R202, R217, R235, R329). DESIGN CHOICE, unsafe: for a voice that entered DYING before a frame was published for
it, PFR reads frame 0 as memory holds it (log entry 62). -/
def State.dispatched (s : State) (t : Task) : Task :=
  let g := s.prog t.prog
  let t := { t with
    len := (g.map (·.len)).getD 0, trap := (g.map (·.trap)).getD 0, cost := (g.map (·.cost)).getD 0 }
  if tagKind t.tag = 0 then
    let v := t.tag.toNat % 8192
    let x := s.slot v
    { t with
      ramp := x.ramp
      frameNo := if x.state = .dying then (s.ctx v).pubFrame else s.frameOfBlock t.blk }
  else t

/-- A voice's dispatched task takes over what a dropped block owed (R331). -/
def State.payOwed (s : State) (t : Task) : State :=
  if tagKind t.tag = 0 then
    let v := t.tag.toNat % 8192
    s.setSlot v { s.slot v with owesFirst := false, owesOnset := false, owesGate := false, owesLeg := false }
  else s

/-- Records the time from ready to dispatch (PUP_WAIT). -/
def State.noteWait (s : State) (n : Nat) (t : Task) : State :=
  let w := min (s.refTotal - (t.stamp.map (·.2)).getD 0) 0xFFFF
  (s.setRf (Reg.PUP_WAIT n) 15 0 w).peak (Reg.PUP_WAIT n) 31 16 w

/-- The input area of a background task reads zero (R306). -/
def State.zeroInputs (s : State) (n : Nat) (t : Task) : State :=
  if t.level = 3 then s.clearBytes (lmBase n + (t.region + t.size) * 64 - 256) 256 else s

/-- Starts a queued task on an idle core (R151, R305, R306, R316). -/
def State.startTask (s : State) (n : Nat) (t : Task) : State :=
  let s := s.zeroInputs n t
  let d := s.dispatched t
  let a := s.entryArch t
  let c := s.core n
  let base := sumOf (fun r => r.arch.sd) c.saved
  let r : TaskRun := { task := d, arch := { a with spillBase := base } }
  let c := { c with
    st := .run
    run := some r
    list := c.list.filter fun x => decide (x ≠ t)
    resident := c.resident.map fun x => if x.prog = t.prog then { x with lastUse := s.readySeq } else x }
  let s := (s.setCore n c).payOwed t
  ({ s with readySeq := s.readySeq + 1 }.noteWait n t).charge n 8

/-- Resumes a saved task on an idle core (R316). -/
def State.resumeTask (s : State) (n : Nat) (r : TaskRun) : State :=
  let c := s.core n
  let c := { c with
    st := if r.arch.tm then .trap else .run
    run := some r
    saved := c.saved.erase r }
  (s.setCore n c).charge n 64

/-- Core n can take a task: idle, with no kernel on it, and not waiting for a block after its recovery (R245, R314). -/
def State.coreFree (s : State) (n : Nat) : Bool :=
  let c := s.core n
  s.rb Reg.PUP_CTRL 0 && decide (c.st = .idle) && c.run.isNone && c.kernel.isNone && !c.backAtBlock

/-- Dispatches on core n (R314). -/
def State.dispatchOn (s : State) (n : Nat) : State :=
  if s.coreFree n then
    match s.pick (s.core n) 3 with
    | .nothing => s
    | .resume r => s.resumeTask n r
    | .start t => s.startTask n t
  else s

/-- Saves the running task (R316, R249). The state saved stands in `Core.saved`: R161 gives bytes 0x1000 to 0x1FFF no layout,
and the model writes nothing there (DESIGN CHOICE, unsafe: log entry 61). -/
def State.saveRunning (s : State) (n : Nat) (r : TaskRun) : State :=
  let c := s.core n
  let c := { c with st := .idle, run := none, saved := { r with yielded := false } :: c.saved }
  (((s.setCore n c).charge n 64).count (Reg.PUP_CCNT n 3)).peak (Reg.PUP_QDEPTH n) 24 16 c.depth

/-- A task that is at a bundle boundary outside trap mode, on a core with room to save it (R315). -/
def TaskRun.savable (r : TaskRun) (c : Core) : Bool :=
  !r.arch.tm && r.ended.isNone && decide (r.pend = .none) && decide (c.saved.length < 4)

/-- The highest-level ready task of a core above a level. -/
def State.readyAbove (s : State) (c : Core) (level : Nat) : Option Task :=
  (List.range level).foldl (fun b l =>
    match b with
    | some t => some t
    | none => s.firstReady c l) none

/-- Pre-empts the running task for a ready task of a higher level; after YIELD, switches to a ready task of the same
or a higher level (R206, R315). -/
def State.preemptOn (s : State) (n : Nat) : State :=
  let c := s.core n
  match c.run with
  | none => s
  | some r =>
    if s.rb Reg.PUP_CTRL 0 && r.savable c then
      if r.yielded then
        match s.readyAbove c (r.task.level + 1) with
        | some t => (s.saveRunning n r).startTask n t
        | none => s
      else
        match s.readyAbove c r.task.level with
        | some _ => s.saveRunning n r
        | none => s
    else s

/-! ### Ends, faults, misses and drops (R310, R329 to R333) -/

/-- Core n is strained for the next 16 blocks: from the block that opens at this strobe, or from the one after the block
under way (R332). -/
def State.strain (s : State) (n : Nat) : State :=
  s.setCore n { s.core n with strain := s.block + (if s.frame % 16 = 0 then 16 else 17) }

/-- A fixed task is disabled because it faulted or its core left service: EN and RUN clear, and its queued instances go, so
that it contributes nothing from then on (R310, R333). -/
def State.disableFaulted (s : State) (t : Nat) : State :=
  let s := s.setReg (Reg.PUP_TASK_CFG t) (s.reg (Reg.PUP_TASK_CFG t) &&& 0x7FFFFFFD)
  let s : State := { s with
    taskOn := s.taskOn.filter fun x => decide (x ≠ t)
    cores := s.cores.map fun e => (e.1, { e.2 with
      list := e.2.list.filter fun x => decide (x.tag ≠ fixedTag t) }) }
  s.pupFlag 3

/-- A voice task is one of slot v's occupant: not of one before it, whose task still runs (R46). -/
def State.occupantTask (s : State) (v : Nat) (t : Task) : Bool :=
  decide ((s.slot v).state ≠ .free) && decide ((s.slot v).firstBlk ≤ t.blk) && decide (s.epochFor v t.blk = t.epoch)

/-- The Puppeteer is told that a task faulted (R112, R243, R310, R333). -/
def State.taskFaulted (s : State) (t : Task) : State :=
  match tagKind t.tag with
  | 0 =>
    let v := t.tag.toNat % 8192
    if s.occupantTask v t then s.slotFault v else s
  | 1 =>
    let x := s.tail (t.tag.toNat % 256)
    if x.dying ∧ s.epochFor (8192 + t.tag.toNat % 256) t.blk = t.epoch then
      s.setTail (t.tag.toNat % 256) { x with faulted := true }
    else s
  | 2 => s.disableFaulted (t.tag.toNat % 256)
  | _ => s

/-- Drops a queued task (R330, R331). -/
def State.dropTask (n : Nat) (s : State) (t : Task) : State :=
  let c := s.core n
  let s := s.setCore n { c with list := c.list.filter fun x => decide (x ≠ t) }
  let s := (((s.count (Reg.PUP_CCNT n 1)).pupFlag 2).det 3).strain n
  if tagKind t.tag = 0 then
    let v := t.tag.toNat % 8192
    let x := s.slot v
    s.setSlot v { x with
      owesFirst := x.owesFirst || decide (t.blk = x.firstBlk)
      owesOnset := x.owesOnset || (lastIn t.blk [x.onset]).isSome
      owesGate := x.owesGate || (lastIn t.blk x.gates).isSome
      owesLeg := x.owesLeg || (lastIn t.blk x.legatos).isSome }
  else s

/-- A running or saved task has run past its stage (R330). -/
def State.missTask (n : Nat) (s : State) : State := ((s.count (Reg.PUP_CCNT n 0)).pupFlag 1).strain n

/-- The stage of a task closes at or before the present strobe (R326, R330, R375). -/
def State.stageDue (s : State) (t : Task) : Bool :=
  match t.level with
  | 1 => decide (min (s.p1Close t.blk (t.tag.toNat % 256)) (16 * (t.blk + s.depth)) ≤ s.frame)
  | 3 => false
  | _ => decide (16 * (t.blk + 1) ≤ s.frame)

/-- A late task not yet counted: one that has met TEND has not ended before the collector has accepted its contribution
(R205, R365). -/
def State.lateRun (s : State) (r : TaskRun) : Bool := !r.task.missed && !r.delivered && s.stageDue r.task

/-- Marks a late task as counted. -/
def State.markLate (s : State) (r : TaskRun) : TaskRun :=
  if s.lateRun r then { r with task := { r.task with missed := true } } else r

/-- Closes the stages due on core n: misses counted, undispatched tasks dropped (R330). -/
def State.closeStages (s : State) (n : Nat) : State :=
  let c := s.core n
  let late := (c.active.filter s.lateRun).length
  let drops := c.list.filter s.stageDue
  let c := { c with run := c.run.map s.markLate, saved := c.saved.map s.markLate }
  let t := s.setCore n c
  let t := iter (fun _ u => State.missTask n u) 0 late t
  drops.foldl (State.dropTask n) t

/-- Closes the stages due on every core. -/
def State.closeAllStages (s : State) : State := (s.cores.map (·.1)).foldl State.closeStages s

/-- Sets a core out of service, with the cause of vector 25 (R246, R333, R493). -/
def State.outOfService (s : State) (n : Nat) : State :=
  let c := s.core n
  let s := s.setCore n { bundles := c.bundles, oos := true, st := .off }
  let mine := s.ctxs.filter fun e => e.2.placed && decide (e.2.home = n)
  let s := mine.foldl (fun t e =>
    if e.1 < 8192 then t.slotFault e.1
    else t.setTail (e.1 - 8192) { t.tail (e.1 - 8192) with faulted := true }) s
  ((s.tasksOn n).foldl State.disableFaulted s).causeBoth 25

/-! ### Migration (R324, R325, R678) -/

/-- Block k opens no control tick (R24). -/
def State.noTick (s : State) (k : Nat) : Bool := decide (16 * k % s.ctick ≠ 0)

/-- Voice v may be given a new home for block k (R324). -/
def State.movable (s : State) (k v : Nat) : Bool :=
  let x := s.slot v
  let c := s.ctx v
  decide (x.state ≠ .free) && decide (x.state ≠ .faulted) && decide (x.firstBlk < k) && c.placed && c.mig.isNone

/-- Core n may take the context of voice v, its copy counted on both cores and the load of its program on the new one
(R317, R324, R328). -/
def State.canTake (s : State) (v n : Nat) : Bool :=
  let c := s.ctx v
  match s.prog c.prog with
  | none => false
  | some g =>
    let load := if (s.core n).willHave c.prog then 0 else s.loadCycles g.len
    decide (n ≠ c.ve) && s.qualifies n c.prog g && s.overheadFits n (load + copyCycles c true) &&
      s.overheadFits c.ve (copyCycles c true)

/-- Assigns voice v to core n from block k on (R325 step 1). -/
def State.migrate (s : State) (k v n : Nat) : State :=
  let c := s.ctx v
  match s.poolRun n c.size with
  | none => s
  | some base =>
    ((s.setCtx v { c.nextEpoch k with mig := some { toVe := n, toBase := base, blk := k } }).count (Reg.PUP_CNT 0)).startLoad n c.prog

/-- The core that takes voice v, in the order of R318. -/
def State.newHome (s : State) (v : Nat) : Option Nat :=
  (List.range 64).foldl (fun best n =>
    if s.canTake v n then
      match best with
      | none => some n
      | some m => if s.placeBefore (s.ctx v).prog n m then some n else some m
    else best) none

/-- The voice of largest COST on core n that can move and that some core takes, with that core; ties to the lower voice ID
(R324). -/
def State.mover (s : State) (k n : Nat) : Option (Nat × Nat) :=
  (s.ctxsOn n).foldl (fun b e =>
    if e.1 < 8192 ∧ s.movable k e.1 = true then
      match s.newHome e.1, b with
      | none, _ => b
      | some m, none => some (e.1, m)
      | some m, some r => if (s.ctx r.1).cost < e.2.cost then some (e.1, m) else some r
    else b) none

/-- Moves voices off a strained core, up to MIGMAX (R324, R332). -/
def State.relieve (k n : Nat) : Nat → State → State
  | 0, s => s
  | fuel + 1, s =>
    match s.mover k n with
    | none => s
    | some (v, m) => State.relieve k n fuel (s.migrate k v m)

/-- The cores that share the load. -/
def State.sharing (s : State) : List Nat :=
  (List.range 64).filter fun n =>
    decide ((s.core n).st ≠ .off) && decide ((s.core n).st ≠ .haltfault) && (s.core n).kernel.isNone

/-- The most and the least loaded core, ties to the lower number (R324). -/
def State.extremes (s : State) : Option (Nat × Nat) :=
  s.sharing.foldl (fun b n =>
    match b with
    | none => some (n, n)
    | some (hi, lo) =>
      some (if s.planLoad hi < s.planLoad n then n else hi, if s.planLoad n < s.planLoad lo then n else lo)) none

/-- The voice of largest COST on `hi` whose move to `lo` reduces their difference (R324). -/
def State.balancer (s : State) (k hi lo : Nat) : Option Nat :=
  (s.ctxsOn hi).foldl (fun b e =>
    if e.1 < 8192 ∧ s.movable k e.1 = true ∧ s.canTake e.1 lo = true ∧ 0 < e.2.cost ∧
        e.2.cost < s.planLoad hi - s.planLoad lo then
      match b with
      | none => some e.1
      | some v => if (s.ctx v).cost < e.2.cost then some e.1 else some v
    else b) none

/-- Voices that core n has given up at this boundary. -/
def State.givenUp (s : State) (k n : Nat) : Nat :=
  sumOf (fun e => match e.2.mig with
    | some m => b2n (decide (m.blk = k) && decide (e.2.ve = n))
    | none => 0) s.ctxs

/-- Balances the load between the most and the least loaded core, step by step. R324 only allows each move: whether
the Puppeteer makes it is a free value. -/
def State.balance (k : Nat) : Nat → State → State
  | 0, s => s
  | fuel + 1, s =>
    match s.extremes with
    | none => s
    | some (hi, lo) =>
      if s.givenUp k hi < s.rf Reg.PUP_CTRL 19 16 then
        match s.balancer k hi lo with
        | none => s
        | some v =>
          let may := s.free 1
          if may.1 = 1 then State.balance k fuel (may.2.migrate k v lo) else may.2
      else s

/-- The strained cores in service: one in HALTFAULT and one on which a device kernel runs are among them (R332). -/
def State.strainedCores (s : State) : List Nat :=
  (List.range 64).filter fun n => decide ((s.core n).st ≠ .off) && s.strained n

/-- The migrations of a block boundary (R324). -/
def State.migrations (s : State) (k : Nat) : State :=
  let max := s.rf Reg.PUP_CTRL 19 16
  let s := s.strainedCores.foldl (fun t n => State.relieve k n (max - t.givenUp k n) t) s
  if s.rb Reg.PUP_CTRL 1 then State.balance k 1024 s else s

/-- The context of voice v is copied to its new core once no task of it runs or is saved (R325 step 2). -/
def State.migrationCopy (s : State) (v : Nat) : State :=
  let c := s.ctx v
  match c.mig with
  | none => s
  | some m =>
    if m.copying ∨ s.tagActive (voiceTag v false) = true then s
    else
      let src := lmBase c.ve + c.base * 64
      let dst := lmBase m.toVe + m.toBase * 64
      let n := c.size * 64
      let frame := s.noTick m.blk || decide ((s.slot v).state = .dying)
      let fno := if (s.slot v).state = .dying then c.pubFrame else s.frameOfBlock m.blk
      let t := s.copyBytes src dst (n - 256)
      let t := if frame then t.copyBytes (src + n - 256 + 128 * fno) (dst + n - 256 + 128 * fno) 128 else t
      let k := copyCycles c frame
      ((t.setCtx v { c with mig := some { m with copying := true } }).charge c.ve k).charge m.toVe k

/-- The copy is complete: the context lives on the new core and the held publication is released (R325 step 3). -/
def State.migrationDone (s : State) (v : Nat) : State :=
  let c := s.ctx v
  match c.mig with
  | none => s
  | some m =>
    if m.copying then
      let t := s.setCtx v { c with ve := m.toVe, base := m.toBase, mig := none }
      let t : State := { t with pubs := t.pubs.map fun q => if q.voice = v then { q with heldForCopy := false } else q }
      t.stampAll
    else s

/-! ### Compaction (R322) -/

/-- One region of a voice pool: base, size, and the context that may move, if any. -/
structure Region where
  base : Nat
  size : Nat
  ctx  : Option Nat

/-- Inserts a region by base. -/
def insertRegion (r : Region) : List Region → List Region
  | [] => [r]
  | x :: l => if r.base ≤ x.base then r :: x :: l else x :: insertRegion r l

/-- The tag of context x. -/
def ctxTag (x : Nat) : BitVec 16 := if x < 8192 then voiceTag x false else tailTag (x - 8192)

/-- The regions of core n in ascending order; one with a task running or saved, be it that of a tail's victim, or in
migration, does not move (R166, R322). -/
def State.poolRegions (s : State) (n : Nat) : List Region :=
  let own := (s.ctxs.filter fun e => e.2.placed && decide (e.2.ve = n)).map fun e =>
    { base := e.2.base, size := e.2.size,
      ctx := if e.2.mig.isSome ∨ s.tagActive (ctxTag e.1) = true ∨
          ((s.core n).taskRegions.any fun r => overlaps r.1 r.2 e.2.base e.2.size) = true then none
        else some e.1 : Region }
  let coming := s.ctxs.filterMap fun e =>
    match e.2.mig with
    | some m => if m.toVe = n then some { base := m.toBase, size := e.2.size, ctx := none : Region } else none
    | none => none
  let busy := (s.core n).taskRegions.map fun r => { base := r.1, size := r.2, ctx := none : Region }
  (own ++ coming ++ busy).foldr insertRegion []

/-- Moves the regions of core n down, each when its cost fits (R322, R328). -/
def State.compactOn (n : Nat) : Nat → List Region → State → State
  | _, [], s => s
  | at_, r :: l, s =>
    match r.ctx with
    | some x =>
      if at_ < r.base ∧ s.overheadFits n (areaCycles r.size) = true then
        let t := s.copyBytes (lmBase n + r.base * 64) (lmBase n + at_ * 64) (r.size * 64)
        let t := (t.setCtx x { t.ctx x with base := at_ }).charge n (areaCycles r.size)
        State.compactOn n (at_ + r.size) l t
      else State.compactOn n (max at_ (r.base + r.size)) l s
    | none => State.compactOn n (max at_ (r.base + r.size)) l s

/-- Compacts every voice pool at a block boundary (R322). -/
def State.compaction (s : State) : State :=
  (s.cores.map (·.1)).foldl (fun t n =>
    State.compactOn n (2048 - t.rf Reg.PUP_CTRL 28 24 * 64) (t.poolRegions n) t) s

/-! ### Residency (R321) -/

/-- Starts the loads that contexts and fixed tasks of core n need and that fit (R321, R328). -/
def State.ensureLoads (s : State) (n : Nat) : State :=
  (s.progsOn n).foldl (fun t g =>
    let c := t.core n
    if !c.willHave g && !c.loadStarted && t.overheadFits n (t.loadCycles (t.lenOf g)) then t.startLoad n g
    else t) s

/-- A load that waits for room on core n takes it as soon as it is there (R321). -/
def State.roomAgain (s : State) (n g : Nat) : State :=
  let c := s.core n
  match c.resident.find? fun r => decide (r.prog = g) && r.noRoom with
  | none => s
  | some r =>
    let p := s.roomFor n g r.len (c.resident.filter fun x => decide (x.prog ≠ g))
    p.2.setCore n { c with resident := p.1 }

/-- A residency load ends: the bundles are in instruction memory (R321). A load that still waits for room does not. -/
def State.loadDone (s : State) (n g : Nat) : State :=
  let s := s.roomAgain n g
  let c := s.core n
  match c.resident.find? fun r => decide (r.prog = g) && r.loading && !r.noRoom, s.prog g with
  | some r, some p =>
    let t := s.copyBytes (psBase + 8 * p.base) (imBase n + 8 * r.base) (8 * r.len)
    (t.setCore n { c with
      resident := c.resident.map fun x => if x.prog = g then { x with loading := false } else x }).stampAll
  | _, _ => s

/-! ### Block boundaries -/

/-- PUP_LOAD: the busy fraction of the block that ends, in cycles at R_plan. -/
def State.noteLoad (s : State) (n : Nat) : State :=
  let c := s.core n
  let period := s.age.rplan * 1000000 * 16 / s.fs
  let f := min 0xFFFF (c.busy * 65536 / max period 1)
  (s.setRf (Reg.PUP_LOAD n) 15 0 f).peak (Reg.PUP_LOAD n) 31 16 f

/-- A task starts a new block: its occupancy is counted afresh (R329). -/
def TaskRun.newBlock (r : TaskRun) : TaskRun := { r with occ := 0, task := { r.task with overrun := false } }

/-- Core n at a block boundary. -/
def State.coreBoundary (s : State) (n : Nat) : State :=
  let s := s.noteLoad n
  let c := s.core n
  s.setCore n { c with
    overhead := 0, busy := 0, loadStarted := false, backAtBlock := false
    run := c.run.map TaskRun.newBlock, saved := c.saved.map TaskRun.newBlock }

/-- The enables in effect at a block boundary (R308, R310): queued tasks of entries no longer enabled go. -/
def State.taskBoundary (s : State) : State :=
  let on := s.enabledTasks
  let gone (t : Task) : Bool := decide (tagKind t.tag = 2) && !on.contains (t.tag.toNat % 256)
  let fresh := on.filter fun t => !s.taskOn.contains t
  let runs := fresh.foldl (fun r t => tdel t r) s.runs
  { s with
    taskOn := on
    runs := runs
    cores := s.cores.map fun e => (e.1, { e.2 with list := e.2.list.filter fun t => !gone t }) }

/-- The tasks of every enabled background entry with RUN set. -/
def State.createBackgrounds (s : State) : State := s.taskOn.foldl State.createBackground s

/-! ### The enable of a fixed task (R308, R309) -/

/-- The regions of two entries overlap on one core. -/
def State.entryOverlaps (s : State) (t u : Nat) : Bool :=
  decide (t ≠ u) && decide (s.taskVe t = s.taskVe u) &&
    overlaps (s.rf (Reg.PUP_TASK_MEM t) 10 0) (s.rf (Reg.PUP_TASK_MEM t) 26 16)
      (s.rf (Reg.PUP_TASK_MEM u) 10 0) (s.rf (Reg.PUP_TASK_MEM u) 26 16)

/-- The rank of an entry under the COL_BUS words now stored. -/
def State.storedRank (s : State) (t : Nat) : Nat :=
  maxOf (fun i => s.rf (Reg.COL_BUS (s.taskIn t i)) 2 0) (List.range (s.taskNin t))

/-- The stage condition of R309 for entry t with EN set, the stored settings taken. -/
def State.stageOk (s : State) (t : Nat) : Bool :=
  let q := s.storedRank t
  if q < s.rmax then
    let span := deadline s.depth s.rmax 0 (q + 1) - deadline s.depth s.rmax 0 q
    let cp1 := sumOf (fun u => if s.taskP1 u then s.costOf (s.taskProg u) else 0) (s.tasksOn (s.taskVe t))
    let cycles := s.age.rplan * 1000000 * span * 2000 / (s.fs * 2001)
    decide (16 * (s.cMax + cp1) + (s.age.rplan * 4 + 9) / 10 ≤ cycles)
  else true

/-- The conditions of R308 that hold for entry t, its EN already set in `s`. -/
def State.enableOk (s : State) (t : Nat) : Bool :=
  let base := s.rf (Reg.PUP_TASK_MEM t) 10 0
  let size := s.rf (Reg.PUP_TASK_MEM t) 26 16
  let prio := s.rf (Reg.PUP_TASK_CFG t) 29 28
  let on := s.tasksOn (s.taskVe t)
  let p1cost (l : List Nat) : Nat := sumOf (fun u => if s.taskP1 u then s.costOf (s.taskProg u) else 0) l
  match s.prog (s.taskProg t) with
  | none => false
  | some g =>
    decide (g.kind = 2) && (decide (prio = 1) || decide (prio = 3)) && decide (s.taskNin t ≤ 4) &&
    decide (g.mem ≤ size) && decide (128 ≤ base) && decide (base + size ≤ 2048 - s.rf Reg.PUP_CTRL 28 24 * 64) &&
    on.all (fun u => !s.entryOverlaps t u) &&
    decide (sumOf s.lenOf (on.map s.taskProg).eraseDups ≤ 4096) &&
    (decide (prio ≠ 1) ||
      (decide (p1cost on ≤ s.vBudget - s.cMax) && decide (s.minCost + p1cost s.enabledTasks ≤ s.budget) && s.stageOk t))

end Sys2Proof.Machine
end

