-- ==== Sys2Proof/Machine/Crypto.lean ====
section
/-! DEFINITION. The cryptographic functions that SEC uses, which the manual names by their standards (R581, R582, R587,
R590, R595, R597, R599): SHA-384 (FIPS 180-4), ECDSA and ECDH on P-384 (FIPS 186-5, SEC 1), AES-256 (FIPS 197), its key
unwrap (SP 800-38F, KW) and GCM (SP 800-38D). PRESUMED: the standards' own text (log entry 9). -/

namespace Sys2Proof.Machine

/-! ### Byte strings (R581) -/

/-- The big-endian number of a byte string. -/
def beNat (l : List Byte) : Nat := l.foldl (fun n b => 256 * n + b.toNat) 0

/-- The big-endian string of `n` bytes. -/
def toBE (x n : Nat) : List Byte := (toLE x n).reverse

/-- A list cut into pieces of `k`, `n` of them. -/
def pieces {α : Type} (k : Nat) : Nat → List α → List (List α)
  | 0, _ => []
  | n + 1, l => l.take k :: pieces k n (l.drop k)

/-- The first primes, by trial division. -/
def isPrime (n : Nat) : Bool := decide (2 ≤ n) && (List.range n).all fun d => decide (d < 2) || decide (n % d ≠ 0)

/-- The largest x of `k` bits with x ^ e at most n. -/
def rootBits (e n : Nat) : Nat → Nat
  | 0 => 0
  | k + 1 =>
    let r := 2 * rootBits e (n / 2 ^ e) k
    if (r + 1) ^ e ≤ n then r + 1 else r

/-! ### SHA-384 (FIPS 180-4) -/

/-- The low 64 bits. -/
def low64 (x : Nat) : Nat := x % 2 ^ 64

/-- The first 80 primes. -/
def primes80 : List Nat := (List.range 410).filter isPrime

/-- The round constants: 64 bits of the fractional parts of the cube roots of the first 80 primes. -/
def shaK : List Nat := primes80.map fun p => low64 (rootBits 3 (p * 2 ^ 192) 68)

/-- The initial hash value of SHA-384: 64 bits of the fractional parts of the square roots of the ninth to sixteenth
primes. -/
def shaInit : List Nat := ((primes80.drop 8).take 8).map fun p => low64 (rootBits 2 (p * 2 ^ 128) 70)

/-- Rotation of a 64-bit word to the right. -/
def rotr64 (n x : Nat) : Nat := Nat.lor (x / 2 ^ n) (low64 (x * 2 ^ (64 - n)))

/-- The exclusive or of three words. -/
def xor3 (a b c : Nat) : Nat := Nat.xor (Nat.xor a b) c

/-- The message schedule, latest word first: the 16 words of the block extended by `n` words. -/
def shaSchedule (block : List Nat) : Nat → List Nat
  | 0 => block.reverse
  | n + 1 =>
    let w := shaSchedule block n
    let at_ (i : Nat) : Nat := w.getD (i - 1) 0
    let s0 := xor3 (rotr64 1 (at_ 15)) (rotr64 8 (at_ 15)) (at_ 15 / 2 ^ 7)
    let s1 := xor3 (rotr64 19 (at_ 2)) (rotr64 61 (at_ 2)) (at_ 2 / 2 ^ 6)
    low64 (s1 + at_ 7 + s0 + at_ 16) :: w

/-- One round, on the working variables a to h. -/
def shaRound (v : List Nat) (kw : Nat × Nat) : List Nat :=
  match v with
  | [a, b, c, d, e, f, g, h] =>
    let s1 := xor3 (rotr64 14 e) (rotr64 18 e) (rotr64 41 e)
    let ch := Nat.xor (Nat.land e f) (Nat.land (2 ^ 64 - 1 - e) g)
    let t1 := h + s1 + ch + kw.1 + kw.2
    let s0 := xor3 (rotr64 28 a) (rotr64 34 a) (rotr64 39 a)
    let maj := xor3 (Nat.land a b) (Nat.land a c) (Nat.land b c)
    [low64 (t1 + s0 + maj), a, b, c, low64 (d + t1), e, f, g]
  | v => v

/-- One block of 128 bytes. -/
def shaBlock (hash : List Nat) (block : List Byte) : List Nat :=
  let w := (shaSchedule ((pieces 8 16 block).map beNat) 64).reverse
  List.zipWith (fun x y => low64 (x + y)) hash ((shaK.zip w).foldl shaRound hash)

/-- The padded message: a bit 1, zeros, and the length in bits in 128 bits. -/
def shaPad (m : List Byte) : List Byte :=
  m ++ [0x80] ++ List.replicate ((239 - m.length % 128) % 128) 0 ++ toBE (8 * m.length) 16

/-- SHA-384. -/
@[irreducible] def sha384 (m : List Byte) : List Byte :=
  let p := shaPad m
  (((pieces 128 (p.length / 128) p).foldl shaBlock shaInit).take 6).flatMap fun x => toBE x 8

/-! ### P-384 (FIPS 186-5, SEC 1) -/

/-- The prime of the field. -/
def p384 : Nat := 2 ^ 384 - 2 ^ 128 - 2 ^ 96 + 2 ^ 32 - 1

/-- The order of the base point. -/
def n384 : Nat := 0xFFFFFFFFFFFFFFFFFFFFFFFFFFFFFFFFFFFFFFFFFFFFFFFFC7634D81F4372DDF581A0DB248B0A77AECEC196ACCC52973

/-- The coefficient b of the curve y² = x³ - 3x + b. -/
def b384 : Nat := 0xB3312FA7E23EE7E4988E056BE3F82D19181D9C6EFE8141120314088F5013875AC656398D8A2ED19D2A85C8EDD3EC2AEF

/-- A point: none at infinity. -/
abbrev Point := Option (Nat × Nat)

/-- The base point. -/
def g384 : Point :=
  some (0xAA87CA22BE8B05378EB1C71EF320AD746E1D3B628BA79B9859F741E082542A385502F25DBF55296C3A545E3872760AB7,
        0x3617DE4A96262C6F5D9E98BF9292DC29F8F41DBD289A147CE9DA3113B5F0B8C00A60B1CE1D7E819D7A431D7C90EA0E5F)

/-- b ^ e modulo m, for an exponent of at most `k` bits. -/
def powMod (m : Nat) : Nat → Nat → Nat → Nat
  | 0, _, _ => 1 % m
  | k + 1, b, e => let h := powMod m k (b * b % m) (e / 2); if e % 2 = 1 then b * h % m else h

/-- The inverse modulo a prime of at most 384 bits. -/
def invMod (m a : Nat) : Nat := powMod m 384 (a % m) (m - 2)

/-- The third point of the line through two points with slope l, mirrored. -/
def chord (l x1 y1 x2 : Nat) : Point :=
  let x := (l * l + 2 * p384 - x1 - x2) % p384
  some (x, (l * (x1 + p384 - x) + p384 - y1) % p384)

/-- The sum of two points. -/
def addPoint (a b : Point) : Point :=
  match a, b with
  | none, b => b
  | a, none => a
  | some (x1, y1), some (x2, y2) =>
    if x1 ≠ x2 then chord ((y2 + p384 - y1) * invMod p384 (x2 + p384 - x1) % p384) x1 y1 x2
    else if (y1 + y2) % p384 = 0 then none
    else chord ((3 * x1 * x1 + p384 - 3) * invMod p384 (2 * y1) % p384) x1 y1 x1

/-- k times a point, for k of at most `n` bits. -/
@[irreducible] def mulPoint : Nat → Nat → Point → Point
  | 0, _, _ => none
  | n + 1, k, a => let h := mulPoint n (k / 2) (addPoint a a); if k % 2 = 1 then addPoint a h else h

/-- The point of X ‖ Y, where it lies on the curve. -/
def pointOf (key : List Byte) : Point :=
  let x := beNat (key.take 48)
  let y := beNat ((key.drop 48).take 48)
  if x < p384 ∧ y < p384 ∧ y * y % p384 = (x * x * x + (p384 - 3) * x + b384) % p384 then some (x, y) else none

/-- X ‖ Y of a point. -/
def pointBytes : Point → List Byte
  | some (x, y) => toBE x 48 ++ toBE y 48
  | none => List.replicate 96 0

/-- ECDSA: the signature r ‖ s verifies over a SHA-384 digest under the key X ‖ Y (R590, R602). -/
@[irreducible] def ecdsaVerify (key digest sig : List Byte) : Bool :=
  let r := beNat (sig.take 48)
  let s := beNat ((sig.drop 48).take 48)
  match pointOf key with
  | none => false
  | some q =>
    decide (1 ≤ r) && decide (r < n384) && decide (1 ≤ s) && decide (s < n384) &&
      let w := invMod n384 s
      match addPoint (mulPoint 384 (beNat digest * w % n384) g384) (mulPoint 384 (r * w % n384) (some q)) with
      | none => false
      | some (x, _) => decide (x % n384 = r)

/-- ECDSA: r ‖ s of a SHA-384 digest with a private key and a per-signature number k (R599). -/
@[irreducible] def ecdsaSign (private_ : Nat) (digest : List Byte) (k : Nat) : List Byte :=
  let r := match mulPoint 384 k g384 with
    | some (x, _) => x % n384
    | none => 0
  toBE r 48 ++ toBE (invMod n384 k * (beNat digest + r * private_) % n384) 48

/-- ECDH: the x-coordinate of the product of a private key and a public key; nothing for a string that is no point of the
curve (R595). -/
@[irreducible] def ecdh (private_ : Nat) (key : List Byte) : List Byte :=
  match mulPoint 384 private_ (pointOf key) with
  | some (x, _) => toBE x 48
  | none => []

/-! ### AES-256 (FIPS 197) -/

/-- The product in the field of 256 elements, by the low `n` bits of a. -/
def gfMul : Nat → Nat → Nat → Nat
  | 0, _, _ => 0
  | n + 1, a, b =>
    let twice := if 128 ≤ b then Nat.xor (2 * b % 256) 0x1B else 2 * b
    Nat.xor (if a % 2 = 1 then b else 0) (gfMul n (a / 2) twice)

/-- x ^ e in the field, for an exponent of at most `n` bits. -/
def gfPow : Nat → Nat → Nat → Nat
  | 0, _, _ => 1
  | n + 1, x, e => let h := gfPow n (gfMul 8 x x) (e / 2); if e % 2 = 1 then gfMul 8 x h else h

/-- The substitution of a byte: its inverse, then the affine map. -/
def subByte (x : Nat) : Nat :=
  let v := gfPow 8 x 254
  let rot (n : Nat) : Nat := (v * 2 ^ n + v / 2 ^ (8 - n)) % 256
  Nat.xor (Nat.xor (xor3 v (rot 1) (rot 2)) (Nat.xor (rot 3) (rot 4))) 0x63

/-- The substitution of every byte, and its inverse. -/
def subTable : List Nat := (List.range 256).map subByte
def invTable : List Nat := (List.range 256).map fun y => (subTable.findIdx fun x => decide (x = y))

def subOf (x : Nat) : Nat := subTable.getD x 0
def invOf (x : Nat) : Nat := invTable.getD x 0

/-- The exclusive or of two strings. -/
def xorList (a b : List Nat) : List Nat := List.zipWith Nat.xor a b

/-- The key schedule of AES-256, latest word first: the 8 words of the key extended by `n` words of 4 bytes. -/
def aesSchedule (key : List (List Nat)) : Nat → List (List Nat)
  | 0 => key.reverse
  | n + 1 =>
    let w := aesSchedule key n
    let i := n + 8
    let t := w.getD 0 []
    let t := if i % 8 = 0 then xorList ((t.drop 1 ++ t.take 1).map subOf) [gfPow 8 2 (i / 8 - 1), 0, 0, 0]
      else if i % 8 = 4 then t.map subOf else t
    xorList (w.getD 7 []) t :: w

/-- The 15 round keys of a key of 32 bytes. -/
def aesKeys (key : List Nat) : List (List Nat) := pieces 16 15 (aesSchedule (pieces 4 8 key) 52).reverse.flatten

/-- Byte r of column c moves from column c + r: the rows of the state are shifted. `back`: the inverse. -/
def shiftRows (back : Bool) (x : List Nat) : List Nat :=
  (List.range 16).map fun i => x.getD (4 * ((i / 4 + if back then 4 - i % 4 else i % 4) % 4) + i % 4) 0

/-- Each column multiplied by the polynomial with the given coefficients. -/
def mixColumns (m : List Nat) (x : List Nat) : List Nat :=
  (List.range 16).map fun i =>
    (List.range 4).foldl (fun a j => Nat.xor a (gfMul 8 (m.getD ((j + 4 - i % 4) % 4) 0) (x.getD (4 * (i / 4) + j) 0))) 0

/-- AES-256 encryption of one block of 16 bytes. -/
def aesEncrypt (key block : List Nat) : List Nat :=
  let k := aesKeys key
  let x := (List.range 13).foldl (fun x i => xorList (mixColumns [2, 3, 1, 1] (shiftRows false (x.map subOf))) (k.getD (i + 1) []))
    (xorList block (k.getD 0 []))
  xorList (shiftRows false (x.map subOf)) (k.getD 14 [])

/-- AES-256 decryption of one block of 16 bytes. -/
def aesDecrypt (key block : List Nat) : List Nat :=
  let k := aesKeys key
  let x := (List.range 13).foldl (fun x i => mixColumns [14, 11, 13, 9] (xorList ((shiftRows true x).map invOf) (k.getD (13 - i) [])))
    (xorList block (k.getD 14 []))
  xorList ((shiftRows true x).map invOf) (k.getD 0 [])

/-- Bytes as numbers, and back. -/
def numbers (l : List Byte) : List Nat := l.map BitVec.toNat
def octets (l : List Nat) : List Byte := l.map (BitVec.ofNat 8)

/-! ### Key unwrap (SP 800-38F, KW) -/

/-- One step of the unwrapping, number t, on A and the semiblock i of R. -/
def unwrapStep (kek : List Nat) (x : List Nat × List (List Nat)) (t : Nat) : List Nat × List (List Nat) :=
  let n := x.2.length
  let i := (t - 1) % n
  let b := aesDecrypt kek (xorList x.1 (numbers (toBE t 8)) ++ x.2.getD i [])
  (b.take 8, x.2.set i (b.drop 8))

/-- The key under a wrapped key of 40 bytes, none where its check fails (R595, R597). -/
@[irreducible] def aesUnwrap (kek wrapped : List Byte) : Option (List Byte) :=
  let w := numbers wrapped
  let r := ((List.range 24).reverse.map (· + 1)).foldl (unwrapStep (numbers kek)) (w.take 8, pieces 8 4 (w.drop 8))
  if r.1 = List.replicate 8 0xA6 then some (octets r.2.flatten) else none

/-! ### GCM (SP 800-38D) -/

/-- The product of two blocks: bits of x from the highest of `n` left on, v the running multiple of y. -/
def ghashMul (x : Nat) : Nat → Nat → Nat → Nat
  | 0, _, z => z
  | n + 1, v, z =>
    let next := if v % 2 = 1 then Nat.xor (v / 2) (0xE1 * 2 ^ 120) else v / 2
    ghashMul x n next (if x / 2 ^ n % 2 = 1 then Nat.xor z v else z)

/-- A string filled with zeros to whole blocks of 16 bytes. -/
def padBlock (l : List Byte) : List Byte := l ++ List.replicate ((16 - l.length % 16) % 16) 0

/-- The hash of a string of whole blocks under H. -/
def ghash (h : Nat) (l : List Byte) : Nat :=
  (pieces 16 (l.length / 16) l).foldl (fun y b => ghashMul (Nat.xor y (beNat b)) 128 h 0) 0

/-- Decryption with a 12-byte initialisation vector: none where the tag does not verify (R597). -/
@[irreducible] def gcmDecrypt (key iv aad cipher tag : List Byte) : Option (List Byte) :=
  let enc (l : List Byte) : List Byte := octets (aesEncrypt (numbers key) (numbers l))
  let h := beNat (enc (List.replicate 16 0))
  let sum := ghash h (padBlock aad ++ padBlock cipher ++ toBE (8 * aad.length) 8 ++ toBE (8 * cipher.length) 8)
  let counter (i : Nat) : List Byte := enc (iv ++ toBE i 4)
  let blocks := pieces 16 ((cipher.length + 15) / 16) cipher
  if Nat.xor sum (beNat (counter 1)) = beNat tag ∧ tag.length = 16 then
    some ((blocks.zip ((List.range blocks.length).map fun i => counter (i + 2))).flatMap fun e =>
      List.zipWith (fun a b => a ^^^ b) e.1 e.2)
  else none

end Sys2Proof.Machine
end

