-- ==== Sys2Proof/Machine/TmrChk.lean ====
section
/-! DEFINITION. The wind-up timers, the reference-cycle counter and the check units (R567 to R580). -/

namespace Sys2Proof.Machine

/-- The USER value of a requester (the table of users). -/
def userCode (q : Req) : Nat := Req.ix q + 1

/-- R567: a timer's or unit's registers other than CFG may be written by its USER only. -/
def userMay (cfg : Word) (q : Req) : Bool := decide (fld cfg 31 29 = userCode q)

/-- R567: the CFG register. -/
def cfgMay (cfg w : Word) (q : Req) : Bool :=
  if fld cfg 31 29 = 0 then decide (fld w 31 29 = userCode q) else userMay cfg q

/-! ### Timers (R568 to R573) -/

/-- The base of timer t is REF. -/
def State.tmrRef (s : State) (t : Nat) : Bool := s.rb (Reg.TMR_CFG t) 28
/-- RUN of timer t. -/
def State.tmrRun (s : State) (t : Nat) : Bool := s.rb (Reg.TMR_STAT t) 1
/-- EXP of timer t. -/
def State.tmrExp (s : State) (t : Nat) : Bool := s.rb (Reg.TMR_STAT t) 0

/-- The count of timer t reaches zero (R570). -/
def State.tmrExpire (s : State) (t : Nat) : State :=
  let s := (s.setReg (Reg.TMR_COUNT t) 0).setReg (Reg.TMR_STAT t) 1
  match s.rf (Reg.TMR_CFG t) 31 29 with
  | 1 => s.cause 0 18
  | 2 => s.cause 1 18
  | _ => s

/-- A running REF timer whose cycles have passed expires (R569): never before. -/
def State.tmrRefEnd (s : State) (t : Nat) : State :=
  if s.tmrRun t && s.tmrRef t && decide (tget 0 s.refEnd t ≤ s.refAll) then s.tmrExpire t else s

/-- A write to TMR_COUNT winds, rewinds or stops the timer (R569), after the expiry of a REF timer whose cycles have passed
(R571); the end of a REF timer's run is noted. -/
def State.tmrWind (s : State) (t : Nat) (n : Word) : State :=
  let s := s.tmrRefEnd t
  let u := (s.setReg (Reg.TMR_COUNT t) n).setRf (Reg.TMR_STAT t) 1 1 (if n = 0 then 0 else 1)
  { u with refEnd := tput 0 u.refEnd t (s.refAll + n.toNat) }

/-- A write to TMR_CFG; USER none clears EXP (R572). -/
def State.tmrCfg (s : State) (t : Nat) (w : Word) : State :=
  let s := s.setReg (Reg.TMR_CFG t) w
  if fld w 31 29 = 0 then s.setRf (Reg.TMR_STAT t) 0 0 0 else s

/-- A FRAME timer counts one strobe (R569). -/
def State.tmrStrobe (t : Nat) (s : State) : State :=
  if s.tmrRun t && !s.tmrRef t then
    let n := (s.reg (Reg.TMR_COUNT t)).toNat - 1
    if n = 0 then s.tmrExpire t else s.setReg (Reg.TMR_COUNT t) (BitVec.ofNat 32 n)
  else s

/-- Every FRAME timer counts a strobe. -/
def State.tmrStrobes (s : State) : State := iter State.tmrStrobe 0 16 s

/-- The count remaining of timer t: that of a running REF timer has fallen by one at each reference cycle (R568). -/
def State.tmrCount (s : State) (t : Nat) : Word :=
  if s.tmrRun t && s.tmrRef t then BitVec.ofNat 32 (tget 0 s.refEnd t - s.refAll) else s.reg (Reg.TMR_COUNT t)

/-- Timer t reaches zero at this strobe: a FRAME timer at its last frame, a REF timer whose cycles have passed. -/
def State.tmrDue (s : State) (t : Nat) : Bool :=
  s.tmrRun t && (if s.tmrRef t then decide (tget 0 s.refEnd t ≤ s.refAll) else decide ((s.reg (Reg.TMR_COUNT t)).toNat ≤ 1))

/-- The timers count up to a strobe, then `act` applies what is due at it: a clear of EXP that meets a new expiry takes
effect before it, so no expiry is lost (R15, R571). -/
def State.tmrAround (s : State) (act : State → State) : State :=
  let due := (List.range 16).filter s.tmrDue
  due.foldl (fun u t => u.setRf (Reg.TMR_STAT t) 0 0 1) (act (iter (fun t u => u.tmrRefEnd t) 0 16 s.tmrStrobes))

/-- TMR_EXPSUM as read. -/
def State.tmrExpsum (s : State) : Word :=
  BitVec.ofNat 32 (sumOf (fun t => b2n (s.tmrExp t) * 2 ^ t) (List.range 16))

/-! ### CRC (R575 to R578) -/

/-- The n low bits of x, reflected. -/
def reflect (x n : Nat) : Nat := sumOf (fun i => (x / 2 ^ i % 2) * 2 ^ (n - 1 - i)) (List.range n)

/-- One bit of a CRC of width w. -/
def crcBit (w poly r b : Nat) : Nat :=
  let top := Nat.xor (r / 2 ^ (w - 1) % 2) b
  let r := 2 * r % 2 ^ w
  if top = 1 then Nat.xor r (poly % 2 ^ w) else r

/-- One byte of a CRC. -/
def crcByte (w poly : Nat) (refin : Bool) (r : Nat) (b : Byte) : Nat :=
  let x := if refin then reflect b.toNat 8 else b.toNat
  (List.range 8).foldl (fun r i => crcBit w poly r (x / 2 ^ (7 - i) % 2)) r

/-- The result from the register (R575). -/
def crcResult (w xorout : Nat) (refout : Bool) (r : Nat) : Nat :=
  Nat.xor (if refout then reflect r w else r) (xorout % 2 ^ w)

/-- CRC-32C (R515). -/
def crc32c (l : List Byte) : Word :=
  BitVec.ofNat 32 (crcResult 32 0xFFFFFFFF true (l.foldl (crcByte 32 0x1EDC6F41 true) 0xFFFFFFFF))

/-- START takes the parameters and sets the register to INIT (R575, R576). -/
def State.chkStart (s : State) (k : Nat) : State :=
  let c := s.reg (Reg.CHK_CFG k)
  let w := fld c 21 16
  let init := s.reg (Reg.CHK_INIT k)
  s.setChk k {
    r := BitVec.ofNat 32 (init.toNat % 2 ^ w), width := w, poly := s.reg (Reg.CHK_POLY k), init := init
    xorout := s.reg (Reg.CHK_XOROUT k), refin := bit c 0, refout := bit c 1 }

/-- A write to CHK_DINn feeds n bytes (R577). Before the first START no result is stated: r is then a free value. -/
def State.chkFeed (s : State) (k n : Nat) (w : Word) : State :=
  let u := s.chk k
  if u.width = 0 then (s.free 32).2.setChk k { u with r := (s.free 32).1 } else
  let r := (toLE w.toNat n).foldl (crcByte u.width u.poly.toNat u.refin) u.r.toNat
  s.setChk k { u with r := BitVec.ofNat 32 r }

/-- CHK_CRC as its USER reads it (R578). -/
def State.chkCrc (s : State) (k : Nat) : Word :=
  let u := s.chk k
  BitVec.ofNat 32 (crcResult u.width u.xorout.toNat u.refout u.r.toNat)

/-! ### The alive check (R579, R580) -/

/-- A message word is presented (R579). -/
def State.chkAlive (s : State) (k : Nat) (x : Word) : State :=
  let a := s.reg (Reg.CHK_ACFG k)
  let st := Reg.CHK_ASTAT k
  if bit a 31 = false then s
  else
    let m := 2 ^ fld a 20 16
    let c := x.toNat / 2 ^ fld a 4 0 % m
    let e := s.rf st 15 0
    let next := (c + 1) % m
    if s.rb st 29 = false then ((s.setRf st 15 0 next).setRf st 29 29 1).setRf st 31 30 0
    else if c = e then (s.setRf st 15 0 next).setRf st 31 30 1
    else if c = (e + m - 1) % m then ((s.setRf st 31 30 2).setRf st 16 16 1).count (Reg.CHK_CNT k 0)
    else (((s.setRf st 31 30 3).setRf st 17 17 1).count (Reg.CHK_CNT k 1)).setRf st 15 0 next

/-- SYNC is cleared (R580). -/
def State.chkUnsync (s : State) (k : Nat) : State := s.setRf (Reg.CHK_ASTAT k) 29 29 0

/-- A write to CHK_CTRL. -/
def State.chkCtrl (s : State) (k : Nat) (w : Word) : State :=
  let s := if bit w 1 then s.chkUnsync k else s
  if bit w 0 then s.chkStart k else s

/-- A write to CHK_CFG; USER none clears r and SYNC. -/
def State.chkCfg (s : State) (k : Nat) (w : Word) : State :=
  let s := s.setReg (Reg.CHK_CFG k) w
  if fld w 31 29 = 0 then (s.setChk k { s.chk k with r := 0 }).chkUnsync k else s

/-- A write to CHK_ACFG; EN going to 1 clears SYNC (R580). -/
def State.chkAcfg (s : State) (k : Nat) (w : Word) : State :=
  let was := s.rb (Reg.CHK_ACFG k) 31
  let t := s.setReg (Reg.CHK_ACFG k) w
  if !was && bit w 31 then t.chkUnsync k else t

/-- AW and POS that R580 leaves undefined. -/
def chkAcfgBad (w : Word) : Bool :=
  decide (fld w 20 16 = 0) || decide (16 < fld w 20 16) || decide (32 < fld w 4 0 + fld w 20 16)

end Sys2Proof.Machine
end

