-- ==== Sys2Proof/Machine/Records.lean ====
section
/-! DEFINITION. The records of the non-volatile memory: layout, validity, the slot in force, writing and the
retained set (R628 to R632, R640 to R642). -/

namespace Sys2Proof.Machine

/-- Where a record lies (R628): slot A, slot B, slot size. -/
structure RecordSpec where
  slotA : Nat
  slotB : Nat
  size  : Nat
deriving DecidableEq, Repr

/-- The record of an RID, if one exists (R628). -/
def recordOf (rid : Nat) : Option RecordSpec :=
  match rid with
  | 1 => some ⟨0x0, 0x400, 0x400⟩
  | 2 => some ⟨0x800, 0xA00, 0x200⟩
  | 3 => some ⟨0xC00, 0xE00, 0x200⟩
  | 4 => some ⟨0x1000, 0x1200, 0x200⟩
  | 5 => some ⟨0x2000, 0x3000, 0x1000⟩
  | 6 => some ⟨0x4000, 0x6000, 0x2000⟩
  | 7 => some ⟨0x8000, 0x1C000, 0x14000⟩
  | 8 => some ⟨0x30000, 0x40000, 0x10000⟩
  | 9 => some ⟨0x50000, 0x60000, 0x10000⟩
  | n => if 0x40 ≤ n ∧ n < 0x80 then some ⟨0x70000 + 1024 * (n - 0x40), 0x70200 + 1024 * (n - 0x40), 0x200⟩ else none

/-- Payload capacity (R629). -/
def RecordSpec.capacity (r : RecordSpec) : Nat := r.size - 32

/-- A 64-bit word of non-volatile memory. -/
def State.nvWord (s : State) (off : Nat) : Nat := (s.dword (nvmBase + off)).toNat

/-- SEQ of the slot at an offset. -/
def State.slotSeq (s : State) (off : Nat) : Nat := s.nvWord off / 65536

/-- LEN of the slot at an offset. -/
def State.slotLen (s : State) (off : Nat) : Nat := s.nvWord (off + 8) / 2 ^ 32

/-- H1.OWNER of the slot at an offset. -/
def State.slotOwner (s : State) (off : Nat) : Nat := s.nvWord (off + 8) / 2 ^ 30 % 4

/-- The slot at an offset is valid (R630). -/
def State.slotValid (s : State) (rid : Nat) (r : RecordSpec) (off : Nat) : Bool :=
  let seq := s.slotSeq off
  decide (s.nvWord off % 256 = rid) && decide (seq ≠ 0) &&
    decide (s.nvWord (off + r.size - 8) = seq * 65536 + 0xC3A5) &&
    decide (s.slotLen off ≤ r.capacity) &&
    decide (s.nvWord (off + r.size - 16) % 2 ^ 32 = (crc32c (s.bytes (nvmBase + off) (r.size - 16))).toNat)

/-- The offset of the slot in force, if the record is valid (R630). -/
def State.slotInForce (s : State) (rid : Nat) (r : RecordSpec) : Option Nat :=
  match s.slotValid rid r r.slotA, s.slotValid rid r r.slotB with
  | true, true => some (if s.slotSeq r.slotA < s.slotSeq r.slotB then r.slotB else r.slotA)
  | true, false => some r.slotA
  | false, true => some r.slotB
  | false, false => none

/-- The payload of a valid record. -/
def State.record (s : State) (rid : Nat) : Option (List Byte) :=
  (recordOf rid).bind fun r => (s.slotInForce rid r).map fun o => s.bytes (nvmBase + o + 16) (s.slotLen o)

/-- The slot that the next write of a record takes (R631). -/
def State.slotToWrite (s : State) (rid : Nat) (r : RecordSpec) : Nat :=
  if s.slotInForce rid r = some r.slotA then r.slotB else r.slotA

/-- The SEQ of the next write (R631). -/
def State.nextSeq (s : State) (rid : Nat) (r : RecordSpec) : Nat :=
  match s.slotInForce rid r with
  | some o => s.slotSeq o + 1
  | none => 1

/-- Writes bytes of non-volatile memory. -/
def State.setNv (s : State) (off : Nat) (l : List Byte) : State := s.setBytes (nvmBase + off) l

/-- Step 1 of R631, in the slot at offset `o`: H1, then H0 with the new SEQ. -/
def State.recordMark (s : State) (rid o seq len owner : Nat) : State :=
  (s.setNv (o + 8) (toLE (len * 2 ^ 32 + owner * 2 ^ 30) 8)).setNv o (toLE (seq * 65536 + rid) 8)

/-- The whole of R631, in the slot at offset `o`: mark, payload, CRC and commit words of one record. -/
def State.recordWrite (s : State) (rid : Nat) (r : RecordSpec) (o seq owner : Nat) (data : List Byte) : State :=
  let t := s.recordMark rid o seq data.length owner
  let t := (t.clearBytes (nvmBase + o + 16) r.capacity).setNv (o + 16) data
  let crc := (crc32c (t.bytes (nvmBase + o) (r.size - 16))).toNat
  (t.setNv (o + r.size - 16) (toLE crc 8)).setNv (o + r.size - 8) (toLE (seq * 65536 + 0xC3A5) 8)

/-- NVM_RINFO of a record identifier. -/
def State.rinfo (s : State) (rid : Nat) : Dword :=
  match recordOf rid with
  | none => 0
  | some r =>
    match s.slotInForce rid r with
    | none => 0
    | some o =>
      BitVec.ofNat 64 (2 ^ 63 + b2n (decide (o = r.slotB)) * 2 ^ 62 + s.slotOwner o * 2 ^ 60 + s.slotSeq o)

/-- The record identifiers of R628. -/
def allRids : List Nat := List.range' 1 9 ++ List.range' 0x40 64

/-- A slot holds an interrupted write (R632). -/
def State.slotTorn (s : State) (rid : Nat) (r : RecordSpec) (o : Nat) : Bool :=
  let inForce := ((s.slotInForce rid r).map fun x => s.slotSeq x).getD 0
  decide (s.nvWord o % 256 = rid) && decide (inForce < s.slotSeq o) && !s.slotValid rid r o

/-- The check of every record at start-up (R632). -/
def State.tornCheck (s : State) : State :=
  allRids.foldl (fun t rid =>
    match recordOf rid with
    | none => t
    | some r =>
      [r.slotA, r.slotB].foldl (fun t o =>
        if s.slotTorn rid r o then (t.orReg Reg.NVM_STAT (onebit 6)).count (Reg.NVM_CNT 2) else t) t) s

/-! ### The retained set (R640 to R642) -/

/-- The addresses of the words of one row of the map that hold a kept field: element order, lower word first. -/
def RegSpec.keptWords (r : RegSpec) : List Nat :=
  let lo := r.fields.any fun f => f.kept && decide (f.lo < 32)
  let hi := r.wide && r.fields.any fun f => f.kept && decide (32 ≤ f.hi)
  if lo || hi then
    (List.range r.n1).flatMap fun i => (List.range r.n2).flatMap fun j =>
      let a := r.base + r.s1 * i + r.s2 * j
      (if lo then [a] else []) ++ (if hi then [a + 4] else [])
  else []

/-- Merges two ascending lists; the first argument bounds the steps. -/
def mergeAsc : Nat → List Nat → List Nat → List Nat
  | 0, l, _ => l
  | _ + 1, [], m => m
  | _ + 1, l, [] => l
  | n + 1, a :: l, b :: m => if a ≤ b then a :: mergeAsc n l (b :: m) else b :: mergeAsc n (a :: l) m

/-- The addresses, ascending, of the words that hold a kept field. -/
def keptAddrs : List Nat :=
  [mapSys, mapHp, mapSem, mapTxn, mapEvt, mapVal, mapPup, mapMod, mapVe, mapWs, mapCol, mapOut, mapDac, mapMck,
    mapUart, mapTmr, mapChk, mapSec, mapNvm, mapPwr, mapAge, mapStg].flatMap fun m =>
    m.foldl (fun l r => let k := r.keptWords; mergeAsc (l.length + k.length) l k) []

/-- The kept bits of a word. PU and FLT of the converters come from the code record on the PV8K1-C (R437). -/
def keptMask (variant : Variant) (addr : Nat) : Word :=
  match findReg addr with
  | none => 0
  | some h =>
    if variant = .c ∧ h.name = .DAC_CH_PUF then 0
    else h.wordFields.foldl (fun w f => if f.kept then w ||| fmask f.hi f.lo else w) 0

/-- The register of a hit belongs to channels 4 to 7 or to group 1, which the PV8K1-C lacks: it reads zero there (R2). -/
def dacMissing (variant : Variant) (h : RegHit) : Bool :=
  decide (variant = .c) &&
  (match h.name with
   | .DAC_GCFG => decide (h.i = 1)
   | .DAC_CH_CFG => decide (4 ≤ h.i)
   | .DAC_CH_CODE => decide (4 ≤ h.i)
   | .DAC_CH_PUF => decide (4 ≤ h.i)
   | .DAC_CH_STAT => decide (4 ≤ h.i)
   | .DAC_CH_CAL => decide (4 ≤ h.i)
   | _ => false)

/-- The words that hold a kept field of a variant, in ascending order. -/
def keptFor (variant : Variant) : List Nat :=
  match variant with
  | .f => keptAddrs
  | .c => keptAddrs.filter fun a => decide (keptMask .c a ≠ 0)

/-- The kept fields of a word, zero elsewhere and in a register that the variant lacks (R2, R640). -/
def State.keptWord (s : State) (a : Nat) : Word :=
  if ((findReg a).map fun h => dacMissing s.variant h).getD false then 0 else s.reg a &&& keptMask s.variant a

/-- The retained set's payload: SYS_ID, then the kept words in ascending order (R640). -/
def State.retainedSet (s : State) (lastoff : Nat) : List Byte :=
  let s := s.setRf Reg.PWR_STAT 20 19 lastoff
  (Reg.SYS_ID :: keptFor s.variant).flatMap fun a =>
    toLE (if a = Reg.SYS_ID then s.reg a else s.keptWord a).toNat 4

/-- The words of a byte string. -/
def wordsOf : Nat → List Byte → List Word
  | 0, _ => []
  | n + 1, l => BitVec.ofNat 32 (leNat (l.take 4)) :: wordsOf n (l.drop 4)

/-- Kept fields take their stored values, not judged by any write rule (R642). -/
def State.restoreKept (s : State) (payload : List Byte) : State :=
  let as := keptFor s.variant
  (as.zip (wordsOf as.length (payload.drop 4))).foldl (fun t e =>
    let m := keptMask t.variant e.1
    t.setReg e.1 ((t.reg e.1 &&& ~~~ m) ||| (e.2 &&& m))) s

/-- RSET is valid and belongs to this device (R642): its payload. -/
def State.validRset (s : State) : Option (List Byte) :=
  match s.record 7 with
  | some l => if leNat (l.take 4) = (s.reg Reg.SYS_ID).toNat then some l else none
  | none => none

end Sys2Proof.Machine
end

