-- ==== Sys2Proof/Machine/Sec.lean ====
section
/-! DEFINITION. The security engine: fuses and lifecycle, signed images, boot, sealed delivery, attestation and the
debug lock (R581 to R605). -/

namespace Sys2Proof.Machine

/-! ### Fuses and lifecycle (R583 to R586) -/

/-- n bytes of the fuse array from bit `lo` up. -/
def State.fuseBytes (s : State) (lo n : Nat) : List Byte := toLE (s.sec.fuses.toNat / 2 ^ lo) n

/-- LRH as a byte string. -/
def State.lrh (s : State) : List Byte := s.fuseBytes 288 28
/-- MKH as a byte string. -/
def State.mkh (s : State) : List Byte := s.fuseBytes 64 28
/-- MKHCHK. -/
def State.mkhchk (s : State) : Nat := s.sec.fuses.toNat / 2 ^ 48 % 65536
/-- The DBGOFF fuse. -/
def State.dbgoffFuse (s : State) : Bool := s.sec.fuses.getLsbD 15

/-- The CRC-16 of MKH (R583). -/
def crc16 (l : List Byte) : Nat := crcResult 16 0 false (l.foldl (crcByte 16 0x1021 false) 0xFFFF)

/-- The security version: consecutive ones from bit 16 up (R583). -/
def State.secVersion (s : State) : Nat :=
  (firstFrom (fun n => !s.sec.fuses.getLsbD (16 + n)) 0 32).getD 32

/-- The lifecycle state (R584). -/
def State.life (s : State) : Lifecycle :=
  if !s.sec.fuses.getLsbD 14 then .factory
  else if leNat s.mkh = 0 ∧ s.mkhchk = 0 then .opened
  else if s.mkhchk = crc16 s.mkh then .secured
  else .fuseerr

/-- SEC_STAT.LIFE. -/
def Lifecycle.code : Lifecycle → Nat
  | .factory => 0
  | .opened => 1
  | .secured => 2
  | .fuseerr => 3

def State.setSec (s : State) (x : Sec) : State := { s with sec := x }

/-- A sticky bit of SEC_STAT: the cause of vector 22 in both ports (R604). -/
def State.secFlag (s : State) (n : Nat) : State := (s.orReg Reg.SEC_STAT (onebit n)).causeBoth 22

/-- A rejected signature or debug response (R591, R603). -/
def State.sigRej (s : State) : State := (s.count (Reg.SEC_CNT 0)).secFlag 4

/-- Debug lock of requester i (R601). -/
def State.lockOpen (s : State) (i : Nat) : Bool := decide (s.life = .factory) || s.rb Reg.SEC_STAT (20 + i)

/-- Closes the lock of requester i. -/
def State.lockClose (s : State) (i : Nat) : State := s.setRf Reg.SEC_STAT (20 + i) (20 + i) 0

/-- SEC_STAT as read. -/
def State.secStat (s : State) : Word :=
  let w := setFld (s.reg Reg.SEC_STAT) 31 29 s.life.code
  let w := setFld w 28 28 (b2n s.sec.ident.isSome)
  let w := setFld w 27 27 (b2n s.dbgoffFuse)
  setFld w 23 20 (sumOf (fun i => b2n (s.lockOpen i) * 2 ^ i) (List.range 4))

/-- The staged MKH words (R585). -/
def State.stagedMkh (s : State) : List Byte :=
  (List.range 7).flatMap fun w => toLE (tget 0 s.hidden (Reg.SEC_MKH_STG w)).toNat 4

/-- The number that fuse bits from 64 up take from a byte string. -/
def mkhBits (l : List Byte) : BitVec 512 := BitVec.ofNat 512 (leNat l * 2 ^ 64)

/-- Fuse bit n. -/
def fuseBit (n : Nat) : BitVec 512 := BitVec.ofNat 512 (2 ^ n)

/-- The MKHCHK bits that belong to a key hash; none where none is burned. -/
def chkBits (l : List Byte) : BitVec 512 := if l.isEmpty then 0 else BitVec.ofNat 512 (crc16 l * 2 ^ 48)

/-- Fuse programming ends: every bit of it is burned (R585, R586). -/
def State.fuseDone (s : State) : State :=
  match s.sec.fuseOp with
  | none => s
  | some op =>
    let f := s.sec.fuses ||| mkhBits op.mkh ||| chkBits op.mkh ||| (if op.svn then fuseBit (16 + s.secVersion) else 0) |||
      (if op.dbgoff then fuseBit 15 else 0)
    let t := s.setSec { s.sec with fuses := f, fuseOp := none }
    if op.dbgoff then iter (fun i t => t.lockClose i) 0 4 t else t

/-- The lowest bit of MKH that a key hash burns. -/
def firstMkhBit (l : List Byte) : BitVec 512 :=
  match firstFrom (fun n => (leNat l).testBit n) 0 224 with
  | some n => fuseBit (64 + n)
  | none => 0

/-- The supply is lost while fuses are programmed: an unknown part of them is burned, of MKHCHK only once all of MKH is. Once a
bit of MKH is burned the loss leaves FUSEERR, so no part is burned that would make the device SECURED: where the unknown part
would, one bit of MKH stands for it, and such fuses are in FUSEERR (R584, R585). -/
def State.fuseLost (s : State) : State :=
  match s.sec.fuseOp with
  | none => s
  | some op =>
    let r := s.free 224
    let c := r.2.free 16
    let key := mkhBits (toLE r.1.toNat 28) &&& mkhBits op.mkh
    let chk := if key = mkhBits op.mkh then BitVec.ofNat 512 (c.1.toNat * 2 ^ 48) &&& chkBits op.mkh else 0
    let other := (if op.svn && c.1.getLsbD 0 then fuseBit (16 + s.secVersion) else 0) |||
      (if op.dbgoff && c.1.getLsbD 1 then fuseBit 15 else 0)
    let burnt (m : BitVec 512) : State := c.2.setSec { s.sec with fuses := s.sec.fuses ||| m ||| other, fuseOp := none }
    if op.mkh.isEmpty = false ∧ (burnt (key ||| chk)).life = .secured then burnt (firstMkhBit op.mkh)
    else burnt (key ||| chk)

/-- Judges a write to SEC_FUSE_CTRL: the cause of its refusal, 0 when accepted (R585, R586). -/
def State.fuseJudge (s : State) (q : Req) (w : Word) : Nat :=
  if fld w 31 16 ≠ 0x4D4B ∨ fld w 2 0 = 0 then 0
  else if (bit w 1 || bit w 2) && decide (Req.ix q < 2) then 1
  else if s.sec.fuseOp.isSome then 6
  else if bit w 0 && (decide (s.life ≠ .opened) || decide (leNat s.stagedMkh = 0)) then 6
  else if (bit w 1 || bit w 2) && decide (s.life ≠ .secured) then 6
  else if bit w 1 && decide (s.secVersion = 32) then 6
  else 0

/-- An accepted write to SEC_FUSE_CTRL starts programming of all that it asks for; with DBGOFF the locks close at once
(R585, R586). -/
def State.fuseStart (s : State) (w : Word) : State :=
  if fld w 31 16 ≠ 0x4D4B ∨ fld w 2 0 = 0 then s
  else
    let op : FuseOp := { mkh := if bit w 0 then s.stagedMkh else [], svn := bit w 1, dbgoff := bit w 2 }
    let t := s.setSec { s.sec with fuseOp := some op }
    if bit w 2 then iter (fun i t => t.lockClose i) 0 4 t else t

/-! ### Signed images (R582, R589, R590) -/

/-- A field of a signature block or header, as a number. -/
def leField (l : List Byte) (off n : Nat) : Nat := leNat ((l.drop off).take n)

/-- Bytes of a string. -/
def slice (l : List Byte) (off n : Nat) : List Byte := (l.drop off).take n

/-- The key hash of a public key (R582). -/
def keyHash (pub : List Byte) : List Byte := (sha384 pub).take 28

/-- KEYSEL and SVN of a signature block lie in their ranges (R589). -/
def sigHeaderOk (block : List Byte) : Bool :=
  (decide (leField block 0 4 = 1) || decide (leField block 0 4 = 2)) && decide (leField block 4 4 ≤ 32)

/-- The key hash of PUB equals a fuse field and SIG verifies over the digest (R590). -/
def sigChecks (fuse block digest : List Byte) : Bool :=
  let pub := slice block 8 96
  decide (keyHash pub = fuse) && ecdsaVerify pub digest (slice block 0x68 96)

/-- Whether SEC accepts an image with this signature block and digest (R590). -/
def State.sigAccept (s : State) (block digest : List Byte) : Bool :=
  let svnOk := decide (s.secVersion ≤ leField block 4 4)
  let lentomas := decide (leField block 0 4 = 2)
  match s.life with
  | .secured => svnOk && sigChecks (if lentomas then s.lrh else s.mkh) block digest
  | .fuseerr => lentomas && sigChecks s.lrh block digest
  | _ => if lentomas then sigChecks s.lrh block digest else true

/-- The digest of an image whose signature block starts at `at_`: from offset 0 to the SVN field (R590). -/
def imageDigest (image : List Byte) (at_ : Nat) : List Byte := sha384 (image.take (at_ + 8))

/-- An image passes its signature check. -/
def State.imageOk (s : State) (image : List Byte) (at_ : Nat) : Bool :=
  s.sigAccept (image.drop at_) (imageDigest image at_)

/-- The header of a service program image is valid (R404, R589): KIND, LEN, ENTRY, TRAP, DATA, reserved bytes and
the signature block's own header. -/
def seHeaderOk (h : List Byte) : Bool :=
  let len := leField h 2 2
  let data := leField h 8 4
  decide (leField h 0 2 = 3) && decide (1 ≤ len) && decide (len ≤ 4096) && decide (leField h 4 2 < len) &&
    decide (leField h 6 2 < len) && decide (data % 8 = 0) && decide (data ≤ 221184) && decide (leField h 12 20 = 0)

/-- Where the signature block of a service program image starts (R589). -/
def seSigAt (h : List Byte) : Nat := 0x20 + 8 * leField h 2 2 + leField h 8 4

/-- The program measurement M. -/
def State.measurement (s : State) : List Byte := if s.sec.meas.isEmpty then List.replicate 48 0 else s.sec.meas

/-- An accepted PROG_LOAD extends the measurement (R592). -/
def State.measure (s : State) (digest : List Byte) : State :=
  s.setSec { s.sec with meas := sha384 (s.measurement ++ digest) }

/-- SE image hash e (R592). -/
def State.seHash (s : State) (e : Nat) : List Byte :=
  let h := tget [] s.sec.seHash e
  if h.isEmpty then List.replicate 48 0 else h

def State.setSeHash (s : State) (e : Nat) (h : List Byte) : State :=
  s.setSec { s.sec with seHash := tput [] s.sec.seHash e h }

/-! ### Words of byte strings (R581) -/

/-- Word w of a byte string. -/
def strWord (l : List Byte) (w : Nat) : Word := BitVec.ofNat 32 (leNat (slice l (4 * w) 4))

/-- Stores the first n words of a byte string in a register array. -/
def State.putWords (s : State) (addr : Nat → Nat) (l : List Byte) (n : Nat) : State :=
  iter (fun w t => t.setReg (addr w) (strWord l w)) 0 n s

/-- The bytes of n registers of an array. -/
def State.getWords (s : State) (addr : Nat → Nat) (n : Nat) : List Byte :=
  (List.range n).flatMap fun w => toLE (s.reg (addr w)).toNat 4

/-- The identity public key X ‖ Y, 96 bytes: zero while IDVALID is 0. -/
def State.idpub (s : State) : List Byte :=
  match s.sec.ident with
  | some r => pointBytes (mulPoint 384 (Config.identityPrivate r) g384)
  | none => List.replicate 96 0

/-! ### Boot (R587, R588, R593) -/

/-- The identity record that SEC makes from draw n of its random bit generator. -/
def identityMade (n : Nat) : List Byte := (Config.identityNew n).take 480

/-- The PUF key unwraps an identity record: each one that SEC itself has made, and others as may be (R587). -/
def State.unwraps (s : State) (r : List Byte) : Bool :=
  ((List.range s.sec.draws).any fun n => decide (identityMade n = r)) || Config.identityUnwraps r

/-- Steps 1 to 3 of R593: the identity key is unwrapped or, in FACTORY with no record, made and committed; the
random bit generator is seeded. -/
def State.secBoot (s : State) : State :=
  let s := s.setSec { s.sec with drbgRuns := true, booted := true, ident := none }
  match s.record 2 with
  | some r => if s.unwraps r then s.setSec { s.sec with ident := some r } else s
  | none =>
    if s.life = .factory then
      let r := identityMade s.sec.draws
      let t := match recordOf 2 with
        | some x => s.recordWrite 2 x (s.slotToWrite 2 x) (s.nextSeq 2 x) 0 r
        | none => s
      t.setSec { t.sec with draws := t.sec.draws + 1, ident := some r }
    else s

/-- SEC has booted: its DRBG has been seeded (step 3 of R593). -/
def State.secRuns (s : State) : Bool := s.awake || decide (s.phase = .waitRecords)

/-- A health test of the entropy source fails (R588). -/
def State.entropyFail (s : State) : State :=
  if s.secRuns then (s.setSec { s.sec with drbgRuns := false }).secFlag 7 else s

/-! ### Sealed delivery (R594 to R598) -/

/-- The state asked of bank b by a sealed delivery: the cause of refusal, 0 when accepted (R596). -/
def State.sealJudge (s : State) (agent : Nat) (w : Word) : Nat :=
  if bit w 31 = false then 0
  else
    let b := fld w 3 0
    if s.wsOwner b ≠ agent then 1
    else if s.wsPending b ∨ s.wsBusyBit b ∨ s.wsSealed b ∨ s.sec.sealJob.isSome then 6
    else 0

/-- An accepted request: SEC becomes the owner under R344. -/
def State.sealStart (s : State) (q : Req) (b : Nat) : State :=
  let t := s.setRf (Reg.WS_OWN b) 31 24 0x40
  let t := t.setRf (Reg.WS_OWN b) 16 16 1
  let t : State := { t with wsBusy := tput 0 t.wsBusy b 1 }
  let t := t.bankMoved b
  let t := t.setReg Reg.SEC_SEAL_ST (BitVec.ofNat 32 (b * 2 ^ 20 + userCode q * 2 ^ 17 + 1))
  t.setSec { t.sec with sealJob := some (b, q) }

/-- Some debug lock is open. -/
def State.anyLockOpen (s : State) : Bool := (List.range 4).any s.lockOpen

/-- The header's MAGIC, VERSION, LEN and reserved fields are valid (R594). -/
def sealHeaderOk (h : List Byte) : Bool :=
  let len := leField h 8 4
  decide (leField h 0 4 = 0x5345414C) && decide (leField h 4 2 = 1) && decide (leField h 6 2 = 0) &&
    decide (len % 64 = 0) && decide (64 ≤ len) && decide (len ≤ 0x3FFC00) && decide (leField h 0xC 4 = 0) &&
    decide (leField h 0xB4 12 = 0) && decide (leField h 0x198 616 = 0)

/-- The key-encryption key of a delivery (R595). -/
def State.sealKek (s : State) (eph : List Byte) : List Byte :=
  (sha384 ((s.sec.ident.map fun r => ecdh (Config.identityPrivate r) eph).getD [] ++ eph ++ s.idpub)).take 32

/-- The plain content of the package in bank b, or the code of the first failure (R597). The signature is over header bytes
0x000 to 0x0CF, as R594 has it (DEDUCED: log entry 46). -/
def State.sealOpen (s : State) (b : Nat) : Except Nat (List Byte) :=
  let base := b * 0x400000
  let h := s.bytes base 0x400
  if s.anyLockOpen then .error 7
  else if s.life ≠ .secured ∨ s.sec.ident.isNone ∨ s.sec.drbgRuns = false then .error 6
  else if !sealHeaderOk h then .error 1
  else if leField h 0xD0 4 ≠ 1 ∨ leField h 0xD4 4 > 32 ∨
      s.sigAccept (h.drop 0xD0) (sha384 (h.take 0xD0)) = false then .error 2
  else if slice h 0x10 16 ≠ (keyHash s.idpub).take 16 then .error 3
  else
    match aesUnwrap (s.sealKek (slice h 0x20 96)) (slice h 0x80 40) with
    | none => .error 4
    | some key =>
      match gcmDecrypt key (slice h 0xA8 12) (h.take 0xC0) (s.bytes (base + 0x400) (leField h 8 4)) (slice h 0xC0 16) with
      | none => .error 5
      | some p => .ok (p.take (leField h 8 4))

/-- Words that a delivery of LEN content bytes reads and writes in its bank: none where steps 1 and 2 fail; the header; then
the content, read and decrypted in place; then every word zeroed. The clear after a failure counts in no statistics (R357,
R363; DEDUCED: log entry 46). -/
def sealWords (r : Except Nat (List Byte)) (len : Nat) : Nat :=
  match r with
  | .ok _ => 128 + len / 8 + 0x80000
  | .error 7 => 0
  | .error 6 => 0
  | .error 5 => 128 + 2 * (len / 8)
  | .error _ => 128

/-- SEC ends a delivery: the bank is sealed, or cleared, and handed back (R597, R598). -/
def State.sealDone (s : State) : State :=
  match s.sec.sealJob with
  | none => s
  | some (b, q) =>
    let s := s.wsDrainEnd b
    let r := s.sealOpen b
    let t := (s.wsCount b (sealWords r (s.word (b * 0x400000 + 8)).toNat)).setSec { s.sec with sealJob := none }
    let t := (t.clearBytes (b * 0x400000) 0x400000).setRf (Reg.WS_OWN b) 31 28 (Req.agent q)
    let t := (t.setRf Reg.SEC_SEAL_ST 0 0 0).bankMoved b
    match r with
    | .ok p =>
      let t := (t.setBytes (b * 0x400000 + 0x400) p).setRf (Reg.WS_OWN b) 18 18 1
      (t.setRf Reg.SEC_SEAL_ST 31 24 0).secFlag 5
    | .error c => ((t.setRf Reg.SEC_SEAL_ST 31 24 c).count (Reg.SEC_CNT 1)).secFlag 6

/-! ### Attestation (R599, R600) -/

/-- A GO write queues the requester's quote. -/
def State.attestGo (s : State) (i : Nat) : State :=
  if s.sec.quotes.contains i then s
  else (s.setRf (Reg.SEC_ATT_STAT i) 0 0 1).setSec { s.sec with quotes := s.sec.quotes ++ [i] }

/-- The body words that SEC fills, after the nonce (R599). -/
def State.quoteBody (s : State) (i : Nat) : List Byte :=
  toLE (s.reg Reg.SYS_ID).toNat 4 ++ toLE s.secStat.toNat 4 ++ toLE s.secVersion 4 ++ toLE i 4 ++
    toLE s.evtNow 8 ++ s.seHash 0 ++ s.seHash 1 ++ s.measurement

/-- The oldest quote ends (R599, R600). -/
def State.quoteDone (s : State) : State :=
  match s.sec.quotes with
  | [] => s
  | i :: l =>
    let t := s.setSec { s.sec with quotes := l }
    match s.sec.ident, s.sec.drbgRuns with
    | some r, true =>
      let body := s.getWords (Reg.SEC_ATT_BODY i) 12 ++ s.quoteBody i
      let sig := ecdsaSign (Config.identityPrivate r) (sha384 body) (Config.nonce s.sec.draws)
      let t := t.setSec { t.sec with draws := t.sec.draws + 1 }
      let t := (t.putWords (Reg.SEC_ATT_BODY i) body 54).putWords (Reg.SEC_ATT_SIG i) sig 24
      t.setReg (Reg.SEC_ATT_STAT i) 0
    | _, _ => (t.putWords (Reg.SEC_ATT_SIG i) [] 24).setReg (Reg.SEC_ATT_STAT i) 0x06000000

/-! ### The debug lock (R601 to R603) -/

/-- CHALGO: a fresh challenge, any earlier one discarded (R602). -/
def State.chalGo (s : State) (i : Nat) : State :=
  if s.sec.drbgRuns then
    let t := s.putWords (Reg.SEC_DBG_CHAL i) (Config.drbg s.sec.draws 48) 12
    t.setSec { t.sec with draws := t.sec.draws + 1, chalOut := tput false t.sec.chalOut i true }
  else
    let t := s.putWords (Reg.SEC_DBG_CHAL i) [] 12
    t.setSec { t.sec with chalOut := tput false t.sec.chalOut i false }

/-- The verdict on the response of requester i, as RESULT (R602, R603). -/
def State.unlockVerdict (s : State) (i : Nat) : Nat :=
  let block := (List.range 50).flatMap fun w => toLE (tget 0 s.hidden (Reg.SEC_DBG_RESP i w)).toNat 4
  let digest := sha384 (s.getWords (Reg.SEC_DBG_CHAL i) 12 ++ [BitVec.ofNat 8 i] ++ s.idpub)
  let lentomas := decide (leField block 0 4 = 2) && sigChecks s.lrh block digest
  let maker := decide (leField block 0 4 = 1) && sigChecks s.mkh block digest
  if tget false s.sec.chalOut i = false then 2
  else
    match s.life with
    | .factory => 0
    | .opened => 0
    | .secured => if s.dbgoffFuse then 3 else if lentomas || maker then 0 else 1
    | .fuseerr => if s.dbgoffFuse then 3 else if lentomas then 0 else 1

/-- UNLOCK presents the response and uses up the challenge (R602, R603). -/
def State.unlockTry (s : State) (i : Nat) : State :=
  let v := s.unlockVerdict i
  let t := s.putWords (Reg.SEC_DBG_CHAL i) [] 12
  t.setSec { t.sec with
    chalOut := tput false t.sec.chalOut i false
    unlocking := tput [] t.sec.unlocking i (tget [] t.sec.unlocking i ++ [v]) }

/-- SEC opens the lock or refuses it: the requester's oldest UNLOCK (R602, R603). -/
def State.unlockEnd (s : State) (i : Nat) : State :=
  match tget [] s.sec.unlocking i with
  | [] => s
  | v :: rest =>
    let sealedAny := (List.range 16).any s.wsSealed
    let off := s.dbgoffFuse && (decide (s.life = .secured) || decide (s.life = .fuseerr))
    let r := if v = 3 ∨ off = true then 3 else if sealedAny || s.sec.sealJob.isSome then 2 else v
    let t := s.setSec { s.sec with unlocking := tput [] s.sec.unlocking i rest }
    let t := t.setRf (Reg.SEC_DBG_CTRL i) 31 24 r
    if r = 0 then (t.setRf Reg.SEC_STAT (20 + i) (20 + i) 1).secFlag 3 else t.sigRej

/-- A write to SEC_DBG_CTRL: CLOSE, CHALGO and UNLOCK, in that order. -/
def State.dbgCtrl (s : State) (i : Nat) (w : Word) : State :=
  let s := if bit w 2 then s.lockClose i else s
  let s := if bit w 0 then s.chalGo i else s
  if bit w 1 then s.unlockTry i else s

end Sys2Proof.Machine
end

