-- ==== Sys2Proof/Machine/Nvm.lean ====
section
/-! DEFINITION. Operations on non-volatile memory (R631, R634 to R638, R641). -/

namespace Sys2Proof.Machine

def State.setNvm (s : State) (x : Nvm) : State := { s with nvm := x }

/-- One byte of the Wave Store as an agent reads it for a copy: zero where the agent has no right; a sealed bank's
content is given only where `sealedOk` allows (R406, R636). -/
def State.copyByte (s : State) (agent : Nat) (sealedOk : Bool) (a : Nat) : Byte :=
  let b := bankOf a
  if b < 16 ∧ s.wsOwner b = agent ∧ (sealedOk = true ∨ s.wsSealed b = false) then s.byte a else 0

/-- A copy from the Wave Store with an agent's rights. -/
def State.copySource (s : State) (agent : Nat) (sealedOk : Bool) (a n : Nat) : List Byte :=
  (List.range n).map fun i => s.copyByte agent sealedOk (a + i)

/-- The fixed length of a record's payload, if it has one (R636). -/
def fixedLength (rid : Nat) : Option Nat :=
  match rid with
  | 1 => some (Config.recordLength 1)
  | 2 => some (Config.recordLength 2)
  | 3 => some (Config.recordLength 3)
  | 4 => some 16
  | 5 => some (Config.recordLength 5)
  | 6 => some 4160
  | _ => none

/-- A requester may write or erase a record (R634, R635). -/
def State.recordRights (s : State) (q : Req) (rid : Nat) (erase : Bool) : Bool :=
  let se := decide (2 ≤ Req.ix q)
  let free := decide (s.life = .factory) || decide (s.life = .opened)
  if rid = 8 ∨ rid = 9 then se || free
  else if 0x40 ≤ rid then
    match (recordOf rid).bind fun r => s.slotInForce rid r with
    | some o => decide (s.slotOwner o = Req.agent q)
    | none => true
  else if erase then false
  else
    match rid with
    | 1 => se && decide (s.life = .factory)
    | 5 => se && decide (s.life = .factory)
    | 3 => se && decide (s.life ≠ .fuseerr)
    | 4 => decide (s.variant = .c) && decide (s.rf (Reg.DAC_GCFG 0) 31 30 = Req.agent q)
    | _ => false

/-- A length that a record takes (R636). -/
def lengthOk (rid len : Nat) (r : RecordSpec) : Bool :=
  decide (len ≤ r.capacity) && decide (len % 8 = 0) &&
    (match fixedLength rid with
     | some n => decide (len = n)
     | none => true)

/-- A WRITE judged at its acceptance: RESULT so far (R631, R635, R636). -/
def State.writeResult (s : State) (q : Req) (rid : Nat) (r : RecordSpec) (src len : Nat) (data : List Byte) : Nat :=
  if s.recordRights q rid false = false then 1
  else if s.wsOwner (bankOf src) ≠ Req.agent q ∨ s.wsSealed (bankOf src) = true then 2
  else if lengthOk rid len r = false then 3
  else if s.nextSeq rid r = 2 ^ 48 then 4
  else if (rid = 8 ∨ rid = 9) ∧ (sigHeaderOk (data.drop (seSigAt data)) = false ∨ s.imageOk data (seSigAt data) = false) then 5
  else 0

/-- The operation starts: BUSY, and REQ names its requester. -/
def State.nvmBegin (s : State) (o : NvmOp) : State :=
  let t := s.setRf Reg.NVM_STAT 23 21 ((o.req.map userCode).getD 0)
  t.setNvm { t.nvm with op := some o }

/-- A requester's WRITE: the source is read, and counted by its banks, where nothing refuses the copy before it (R363, R631,
R634). -/
def State.nvmWriteOp (s : State) (q : Req) (rid : Nat) : State :=
  match recordOf rid with
  | none => s
  | some r =>
    let src := s.rf (Reg.NVM_SRC (Req.ix q)) 25 0
    let len := s.rf (Reg.NVM_LEN (Req.ix q)) 16 0
    let data := s.copySource (Req.agent q) false src (min len r.capacity)
    let res := s.writeResult q rid r src len data
    let owner := if 0x40 ≤ rid then Req.agent q else 0
    let o : NvmOp := {
      op := 1, rid := rid, req := some q, result := res, data := data, owner := owner
      slot := s.slotToWrite rid r, seq := s.nextSeq rid r, source := some (bankOf src) }
    let t := if res = 0 then s.recordMark rid o.slot o.seq len owner else s
    let t := if res = 0 ∨ res = 5 then t.wsCountSpan (Req.agent q) src len else t
    t.nvmBegin o

/-- A requester's ERASE. -/
def State.nvmEraseOp (s : State) (q : Req) (rid : Nat) : State :=
  s.nvmBegin { op := 2, rid := rid, req := some q, result := if s.recordRights q rid true then 0 else 1 }

/-- The device's own record write begins: marked as it is accepted, in the slot and with the SEQ that it keeps to its end, or
found to have no sequence number left, RESULT 0x04 (step 1 of R631). -/
def State.markBegin (s : State) (o : NvmOp) : State :=
  match recordOf o.rid with
  | none => s.nvmBegin { o with result := 1 }
  | some r =>
    let o := { o with slot := s.slotToWrite o.rid r, seq := s.nextSeq o.rid r }
    if o.seq = 2 ^ 48 then s.nvmBegin { o with result := 4 }
    else (s.recordMark o.rid o.slot o.seq o.data.length 0).nvmBegin o

/-- A COMMIT takes its snapshot, and writes its mark (R631, R641). -/
def State.nvmCommitOp (s : State) (q : Option Req) (lastoff : Nat) (off : Bool) : State :=
  s.markBegin { op := 3, rid := 7, req := q, result := 0, data := s.retainedSet lastoff, thenOff := off }

/-- A COMMIT that an arbitration slot has accepted takes its snapshot as the slot ends (R641). -/
def State.commitSnapshot (before s : State) : State :=
  match before.nvm.op, s.nvm.op with
  | none, some o =>
    if o.op = 3 then s.setNvm { s.nvm with op := some { o with data := s.retainedSet 0 } } else s
  | _, _ => s

/-- The cause of refusal of a write to NVM_CMD, 0 when accepted (R634). -/
def State.nvmJudge (s : State) (w : Word) : Nat :=
  let op := fld w 31 28
  if s.nvm.op.isSome then 6
  else if op = 0 ∨ 3 < op then 5
  else if op ≠ 3 ∧ (recordOf (fld w 7 0)).isNone then 5
  else 0

/-- An accepted write to NVM_CMD. -/
def State.nvmCmd (s : State) (q : Req) (w : Word) : State :=
  match fld w 31 28 with
  | 1 => s.nvmWriteOp q (fld w 7 0)
  | 2 => s.nvmEraseOp q (fld w 7 0)
  | _ => s.nvmCommitOp (some q) 0 false

/-- ERASE: H0 := 0 in the slot not in force, then in the slot in force; `n` of the two writes are made. -/
def State.eraseSlots (s : State) (rid : Nat) (n : Nat) : State :=
  match recordOf rid with
  | none => s
  | some r =>
    let first := s.slotToWrite rid r
    let second := if first = r.slotA then r.slotB else r.slotA
    let t := if 1 ≤ n then s.setNv first (toLE 0 8) else s
    if 2 ≤ n then t.setNv second (toLE 0 8) else t

/-- The effect of an operation that ends in good order, and its RESULT: 0x02 where the source bank of a WRITE has changed
owner during the copy (R636); 0x06 where the slot written does not read back valid (step 5 of R631; log entry 26). -/
def State.nvmEffect (s : State) (o : NvmOp) : State × Nat :=
  if o.result ≠ 0 then (s, o.result)
  else if o.moved then (s, 2)
  else
    match recordOf o.rid with
    | none => (s, 1)
    | some r =>
      if o.op = 2 then (s.eraseSlots o.rid 2, 0)
      else
        let t := s.recordWrite o.rid r o.slot o.seq o.owner o.data
        (t, if t.slotValid o.rid r o.slot then 0 else 6)

/-- Reports the end of an operation (R634, R650). -/
def State.nvmReport (s : State) (res : Nat) : State :=
  let t := s.setRf Reg.NVM_STAT 31 24 res
  let t := if res = 0 then (t.orReg Reg.NVM_STAT (onebit 4)).count (Reg.NVM_CNT 0)
    else (t.orReg Reg.NVM_STAT (onebit 5)).count (Reg.NVM_CNT 1)
  t.causeBoth 23

/-- The words of a record write after its mark, in order: payload, CRC, COMMIT (R631). -/
def State.writeWords (s : State) (o : NvmOp) (r : RecordSpec) : List Byte :=
  (s.recordWrite o.rid r o.slot o.seq o.owner o.data).bytes (nvmBase + o.slot + 16) (r.size - 16)

/-- An operation stops after some number of its word writes, which the manual does not fix: the supply is lost, or
level 4 or OFF stops it at a word boundary, and then before its last word (R608, R631, R638). -/
def State.nvmCutShort (s : State) (mayEnd : Bool) : State :=
  match s.nvm.op with
  | none => s
  | some o =>
    let r := s.free 32
    let t := r.2.setNvm { s.nvm with op := none }
    if o.result ≠ 0 then t
    else
      match recordOf o.rid with
      | none => t
      | some spec =>
        if o.op = 2 then t.eraseSlots o.rid (r.1.toNat % (2 + b2n mayEnd))
        else
          let words := (spec.size - 16) / 8
          let m := t.recordMark o.rid o.slot o.seq o.data.length o.owner
          m.setNv (o.slot + 16) ((s.writeWords o spec).take (8 * (r.1.toNat % (words + b2n mayEnd))))

/-- Level 4 or OFF entry: an operation other than COMMIT stops (R638). -/
def State.nvmStop (s : State) : State :=
  match s.nvm.op with
  | some o => if o.op = 3 then s else s.nvmCutShort false
  | none => s

/-- NVM_STAT as read. -/
def State.nvmStat (s : State) : Word := setFld (s.reg Reg.NVM_STAT) 0 0 (b2n s.nvm.op.isSome)

end Sys2Proof.Machine
end

