-- ==== Sys2Proof/Machine/Age.lean ====
section
/-! DEFINITION. Ageing: the sentinels, the margin planner and the ageing history (R643 to R651). -/

namespace Sys2Proof.Machine

def State.setAge (s : State) (x : Age) : State := { s with age := x }

/-- An exact fraction with a positive denominator, 0 standing for no bound. -/
structure Frac where
  num : Int
  den : Int
deriving DecidableEq, Repr

/-- The smaller of two fractions. -/
def Frac.min (x y : Frac) : Frac := if y.num * x.den < x.num * y.den then y else x

/-- The fraction is below n / d. -/
def Frac.below (x : Frac) (n d : Int) : Bool := decide (x.num * d < n * x.den)

/-- The whole part of n / d times a fraction. -/
def Frac.scaled (x : Frac) (n d : Int) : Int := x.num * n / (x.den * d)

/-- No sentinel bounds the rate. -/
def Frac.top : Frac := ⟨1, 0⟩

/-- VSET (AGE_STAT). -/
def State.vset (s : State) : Nat := s.rf Reg.AGE_STAT 31 28

/-- Clusters enabled since the last start-up. -/
def State.nclNow (s : State) : Nat := s.rf Reg.PWR_OPP 7 4

/-- The FCAL payload that the calibration kernels of this start-up have loaded (R644). -/
def State.fcal (s : State) : List Byte := s.age.fcal

/-- VTOL, mV (R658). -/
def vtol : Int := 15

/-- The delay of sentinel n at the latest measurement, 0.1 ps. -/
def State.sentDelay (s : State) (n : Nat) : Int := (s.rf (Reg.AGE_SENT n) 15 0 : Int)

/-- The junction temperature of cluster c, °C. -/
def State.clusterTj (s : State) (c : Nat) : Int := (BitVec.ofNat 8 (s.rf (Reg.AGE_CLU c) 15 8)).toInt

/-- One sentinel's projected rate at a set point (R646). -/
def State.sentProj (s : State) (c n v : Nat) : Frac :=
  let q : Int := 2 ^ 48
  let f := s.fcal
  let tj := 105 - s.clusterTj c
  let dv := vtol + 10 * ((s.vset : Int) - v)
  let drift : Int := s.rf Reg.AGE_DRIFT 15 0
  let hor : Int := s.rf Reg.AGE_CTRL 15 8
  { num := Config.fcalK f n * (q - Config.fcalA f n * tj) * (q - Config.fcalB f n * dv) * (10000000 - drift * hor)
    den := s.sentDelay n * q * q * q * 10000000 }

/-- The sentinels of cluster c that are not excluded (R644): none of a cluster for which no kernel has loaded constants, as
it has no core in service (DESIGN CHOICE: log entry 27). -/
def State.sentinels (s : State) (c : Nat) : List Nat :=
  if s.age.loaded.contains c then (List.range' (12 * c) 12).filter fun n => !s.age.excluded.contains n else []

/-- F[c] at a set point (R646). -/
def State.clusterProj (s : State) (c v : Nat) : Frac :=
  (s.sentinels c).foldl (fun m n => m.min (s.sentProj c n v)) Frac.top

/-- proj(vset) of R646. -/
def State.proj (s : State) (v : Nat) : Frac :=
  (List.range s.nclNow).foldl (fun m c => m.min (s.clusterProj c v)) Frac.top

/-- GUARD. -/
def State.guardPm (s : State) : Int := s.rf Reg.AGE_CTRL 23 16
/-- VMIN. -/
def State.vmin (s : State) : Nat := s.rf Reg.AGE_CTRL 3 0

/-- The target T of R647, times 1,000. -/
def State.target (s : State) : Int := 1200 * (1000 + s.guardPm)

/-- One measurement starts, unless one is running (R645). -/
def State.ageStart (s : State) : State :=
  if s.age.measuring || s.age.settling || s.age.awaits then s else s.setAge { s.age with measuring := true }

/-- The readings of one measurement: delays and temperatures are free values (R645). -/
def State.ageRead (s : State) : State :=
  let f := s.fcal
  let s := iter (fun n t =>
    let r := t.free 16
    let d := if r.2.age.excluded.contains n then 0xFFFF else r.1.toNat
    let rate := if d = 0 then 0 else (Config.fcalK f n / (2 ^ 48 * (d : Int))).toNat % 65536
    r.2.setReg (Reg.AGE_SENT n) (BitVec.ofNat 32 (rate * 65536 + d))) 0 96 s
  let s := iter (fun c t =>
    let r := t.free 8
    r.2.setRf (Reg.AGE_CLU c) 15 8 r.1.toNat) 0 8 s
  let hot := (List.range 8).foldl (fun m c => if m < s.clusterTj c then s.clusterTj c else m) (s.clusterTj 0)
  s.setRf Reg.AGE_STAT 23 16 (BitVec.ofInt 8 hot).toNat

/-- One sentinel is tested (R644). -/
def State.testSentinel (n : Nat) (s : State) : State :=
  let r := s.free 16
  let fresh := Config.fcalFresh s.fcal n
  if 2 * r.1.toNat < fresh ∨ 2 * fresh < r.1.toNat then
    (r.2.setAge { r.2.age with excluded := r.2.age.excluded ++ [n] }).setRf (Reg.AGE_SENT n) 15 0 0xFFFF
  else r.2

/-- The calibration kernel of cluster c runs on its lowest-numbered core in service: at most 8,000 bundles, how many the
manual does not say. It loads the cluster's constants and tests its sentinels; with no core in service it does not run
(R644). -/
def State.calibrate (c : Nat) (s : State) : State :=
  match firstFrom (fun n => decide ((s.core n).st = .idle)) (8 * c) 8 with
  | none => s
  | some n =>
    let r := s.free 13
    let k := min r.1.toNat 8000
    let t := r.2.setCore n { s.core n with bundles := (s.core n).bundles + BitVec.ofNat 64 k }
    iter State.testSentinel (12 * c) 12 (t.setAge { t.age with loaded := t.age.loaded ++ [c] })

/-- The constants of FCAL are taken, and the kernel of each enabled cluster runs (R644). -/
def State.calibrateAll (s : State) : State :=
  iter State.calibrate 0 s.nclNow
    (s.setAge { s.age with fcal := (s.record 1).getD [], loaded := [], excluded := [] })

/-- The planner needs a higher set point (R647). -/
def State.needsMore (s : State) : Bool :=
  decide (s.vset < s.vmin) || ((s.proj s.vset).below s.target 1000 && decide (s.vset < 15))

/-- VSET takes a new value, which goes out over AVSBus (R647, R658). -/
def State.sendVset (s : State) (v : Nat) : State :=
  let t := s.setRf Reg.AGE_STAT 31 28 v
  t.setAge { t.age with sent := t.age.sent ++ [v] }

/-- The figures of a finished plan are reported, and R_plan takes its new value (R647, R648). -/
def State.planEnd (s : State) : State :=
  let s := if s.vmin < s.vset ∧ (s.proj (s.vset - 1)).below (s.target * 103) 100000 = false then
    s.sendVset (s.vset - 1) else s
  let p := s.proj s.vset
  let rnew := (clampI (if p.den = 0 then 1200 else p.scaled 1000 (1000 + s.guardPm)) 0 1200).toNat
  let fmin := (clampI (if p.den = 0 then 65535 else p.scaled 1 1) 0 65535).toNat
  let s := iter (fun c t =>
    let q := t.clusterProj c t.vset
    let x := if c < t.nclNow then (clampI (if q.den = 0 then 65535 else q.scaled 1 1) 0 65535).toNat else 0
    t.setRf (Reg.AGE_CLU c) 31 16 x) 0 8 s
  let fell := decide (rnew < s.age.rplan) && !s.age.startup
  let r := if s.age.startup || decide (rnew < s.age.rplan) then rnew else s.age.rplan
  let s := s.setReg Reg.AGE_PLAN (BitVec.ofNat 32 (r * 65536 + fmin))
  let s := s.setAge { s.age with
    rplan := r, startup := false, measuring := false, settling := false, cuts := s.age.cuts + b2n fell
    low := some (match s.age.low with | some x => min x fmin | none => fmin) }
  if fell then ((s.count (Reg.AGE_CNT 1)).orReg Reg.AGE_STAT (onebit 3)).det 6 else s

/-- The readings are taken, and the planner acts on them (R647). -/
def State.plan (s : State) : State :=
  let s := s.ageRead
  if s.needsMore then
    let s := s.sendVset (s.vset + 1)
    let s := s.setAge { s.age with measuring := false, settling := true, raises := s.age.raises + 1 }
    (s.count (Reg.AGE_CNT 0)).orReg Reg.AGE_STAT (onebit 2)
  else s.planEnd

/-- The self-test kernels of step 5 run (R617). -/
def State.selfTesting (s : State) : Bool := decide (s.phase = .selfTest) && (firstFrom (fun n => decide ((s.core n).kernel = some 2)) 0 64).isSome

/-- A measurement ends and the planner acts; at start-up not before the calibration kernels, whose constants it needs
(R644, R647). -/
def State.ageDone (s : State) : State :=
  if !s.age.measuring then s
  else if s.selfTesting then s.setAge { s.age with measuring := false, awaits := true }
  else s.plan

/-- 50 µs after a step up, the planner measures again (R647). -/
def State.vsetSettled (s : State) : State :=
  if s.age.settling then s.setAge { s.age with settling := false, measuring := true } else s

/-- AGE_STAT as read. -/
def State.ageStat (s : State) : Word :=
  let w := setFld (s.reg Reg.AGE_STAT) 1 1 (b2n (decide (s.age.rplan < 1200)))
  setFld w 0 0 (b2n (s.age.measuring || s.age.settling || s.age.awaits))

/-! ### The ageing history (R649). Its byte layout is the model's own. -/

/-- Hours of RUN and SLEEP: those of the history and those since RUN began. -/
def State.hours (s : State) : Nat :=
  (s.reg Reg.AGE_HOURS).toNat + (if s.ready then (s.refAll - s.age.runFrom) / (24576000 * 3600) else 0)

/-- The history's payload, or one of zeros. -/
def State.ageh (s : State) : List Byte :=
  match s.record 6 with
  | some l => l
  | none => List.replicate 4160 0

/-- Replaces bytes of a string from an offset. -/
def spliceAt (l : List Byte) (off : Nat) (x : List Byte) : List Byte := l.take off ++ x ++ l.drop (off + x.length)

/-- One entry of the ring, as things stand: hours, VSET, the highest TJ, FMIN and R_plan. -/
def State.agehEntry (s : State) : List Byte :=
  toLE s.hours 4 ++ toLE s.vset 2 ++ toLE (s.rf Reg.AGE_STAT 23 16) 2 ++ toLE (s.rf Reg.AGE_PLAN 15 0) 4 ++
    toLE s.age.rplan 4

/-- The history with one more entry: summary of hours, the lowest FMIN of any plan, counts of R648 and entries written; then
the ring. -/
def State.agehNext (s : State) (entry : List Byte) : List Byte :=
  let l := s.ageh
  let n := leField l 16 4
  let here := s.age.low.getD (s.rf Reg.AGE_PLAN 15 0)
  let low := if n = 0 then here else min (leField l 4 4) here
  let summary := toLE s.hours 4 ++ toLE low 4 ++ toLE (leField l 8 4 + s.age.raises) 4 ++
    toLE (leField l 12 4 + s.age.cuts) 4 ++ toLE (n + 1) 4
  spliceAt (spliceAt l 0 summary) (64 + 16 * (n % 256)) entry

/-- The entries of the history: hours and FMIN. -/
def agehEntries (l : List Byte) : List (Int × Int) :=
  (List.range (min (leField l 16 4) 256)).map fun i =>
    ((leField l (64 + 16 * i) 4 : Int), (leField l (72 + 16 * i) 4 : Int))

/-- DRIFT: the least-squares slope of FMIN over hours, as ppm of its mean lost per 1,000 h, never below 0 (R646). -/
def driftOf (es : List (Int × Int)) : Nat :=
  let n : Int := es.length
  let sum (f : Int × Int → Int) : Int := es.foldl (fun t e => t + f e) 0
  let sx := sum (·.1)
  let sy := sum (·.2)
  let sxx := sum fun e => e.1 * e.1
  let sxy := sum fun e => e.1 * e.2
  let d := (n * sxx - sx * sx) * sy
  if d ≤ 0 then 0 else min 65535 (-(n * sxy - sx * sy) * n * 1000000000 / d).toNat

/-- AGE_DRIFT, AGE_HOURS and VSET take the history's figures at start-up. -/
def State.agehLoad (s : State) : State :=
  match s.record 6 with
  | none => s.setRf Reg.AGE_STAT 31 28 5
  | some l =>
    let n := leField l 16 4
    let s := (s.setReg Reg.AGE_DRIFT (BitVec.ofNat 32 (driftOf (agehEntries l)))).setReg Reg.AGE_HOURS
      (BitVec.ofNat 32 (leField l 0 4))
    s.setRf Reg.AGE_STAT 31 28 (if n = 0 then 5 else leField l (68 + 16 * ((n - 1) % 256)) 2)

/-- AGEH is written with one entry more; RESULT 0x04 awaits it where no sequence number is left (R53, R631, R649). -/
def State.agehWrite (s : State) (entry : List Byte) : State :=
  (s.setAge { s.age with raises := 0, cuts := 0 }).markBegin
    { op := 1, rid := 6, req := none, result := 0, data := s.agehNext entry }

/-- An entry is appended and AGEH is written; the write waits for an operation in progress (R649), and for the commit before
OFF. -/
def State.agehAppend (s : State) : State :=
  if s.nvm.op.isSome ∨ s.phase = .commit then s.setNvm { s.nvm with agehDue := s.nvm.agehDue ++ [s.agehEntry] }
  else s.agehWrite s.agehEntry

/-- The oldest write of AGEH that waits, once no operation is in its way. -/
def State.agehResume (s : State) : State :=
  match s.nvm.agehDue with
  | [] => s
  | e :: l => if s.phase = .commit then s else (s.setNvm { s.nvm with agehDue := l }).agehWrite e

/-- A write of AGEH that has succeeded gives a new slope (R646). -/
def State.driftAfter (s : State) (o : NvmOp) (res : Nat) : State :=
  if o.rid = 6 ∧ o.op = 1 ∧ res = 0 then s.setReg Reg.AGE_DRIFT (BitVec.ofNat 32 (driftOf (agehEntries o.data))) else s

/-- An operation on non-volatile memory ends (R631, R634, R649). -/
def State.nvmDone (s : State) : State :=
  match s.nvm.op with
  | none => s
  | some o =>
    let r := s.nvmEffect o
    (((r.1.setNvm { r.1.nvm with op := none }).driftAfter o r.2).nvmReport r.2).agehResume

end Sys2Proof.Machine
end

