-- ==== Sys2Proof/Machine/Dac.lean ====
section
/-! DEFINITION. The current-output converters: sources, trim and mute, load strobes, filters, the deglitcher and
supervision (R423 to R448). -/

namespace Sys2Proof.Machine

/-- The group of a channel. -/
def dacGroup (c : Nat) : Nat := c / 4

/-- Channels present on this variant (R1). -/
def State.dacChannels (s : State) : Nat :=
  match s.variant with
  | .f => 8
  | .c => 4

/-- The channel goes to its fault code: its own latch with ACT 1, or a latch of its group with ACT 2 (R431, R443). -/
def State.dacFaulted (s : State) (c : Nat) : Bool :=
  let latched (x act : Nat) : Bool := s.rb (Reg.DAC_CH_STAT x) 3 && decide (s.rf (Reg.DAC_CH_CFG x) 27 26 = act)
  latched c 1 || (List.range 4).any fun i => latched (4 * dacGroup c + i) 2

/-- The source that rows 3 to 7 of R431 give channel c: the ramp into MUTE starts from its value (R445). -/
def State.dacUnder (s : State) (c : Nat) : Nat :=
  if s.variant = .f ∧ s.clrSeen = false then 4
  else if s.dacFaulted c then 5
  else if !s.rb (Reg.DAC_CH_CFG c) 31 then 1
  else if s.rb (Reg.DAC_CH_CFG c) 30 then 3
  else 2

/-- The selected source of channel c, as DAC_CH_STAT.SRC encodes it (R431). MUTE is selected while the actions of sag level 3
are in force: from the first strobe after the level's rise (DEDUCED from R624, log entry 42). -/
def State.dacSrc (s : State) (c : Nat) : Nat :=
  if !s.rb Reg.DAC_CTRL 0 then 0
  else if s.mute.isSome then 6
  else s.dacUnder c

/-- A Q1.15 code as a Q1.31 value (R423). -/
def codeValue (code : Nat) : Word := BitVec.ofNat 32 (code * 65536)

/-- The value that source selection passes (R423, R431); under MUTE the one the ramp brings to zero (R445). -/
def State.dacSelected (s : State) (c : Nat) : Word :=
  match if s.rb Reg.DAC_CTRL 0 then s.dacUnder c else 0 with
  | 1 => codeValue (s.rf (Reg.DAC_CH_PUF c) 31 16)
  | 2 => (s.dacCh c).input
  | 3 => codeValue (s.rf (Reg.DAC_CH_CODE c) 31 16)
  | 4 => codeValue (s.rf (Reg.DAC_CH_CODE c) 15 0)
  | 5 => codeValue (s.rf (Reg.DAC_CH_PUF c) 15 0)
  | _ => 0

/-- A signed 16-bit field. -/
def s16 (x : Nat) : Int := (BitVec.ofNat 16 x).toInt

/-- Polarity, trim and mute ramp of a channel (R423, R445). -/
def State.dacTrim (s : State) (c : Nat) (x : Word) : Word :=
  let v := if s.rb (Reg.DAC_CH_CFG c) 29 then satS32 (-x.toInt) else x.toInt
  let y := satS32 (rnd (v * (2 ^ 20 + s16 (s.rf (Reg.DAC_CH_CAL c) 31 16))) 20 + s16 (s.rf (Reg.DAC_CH_CAL c) 15 0) * 256)
  wordI (rnd (y * s.muteGain) 31)

/-- Settle frames of a filter (R429). -/
def settleFrames (f : Nat) : Nat :=
  match f with
  | 0 => 68
  | 1 => 20
  | 2 => 68
  | _ => 1

/-- The current that the pins of channel c carry, as a code: frozen while held (R423, R434). The hold filter passes the latest
value taken (R429). -/
def State.dacPins (s : State) (c : Nat) : Word :=
  let h := s.dacCh c
  if h.hold then h.pin
  else if h.filt = 3 then h.taps.headD 0
  else Config.interpolate h.filt h.taps

/-- The sources of the eight channels. -/
def State.dacSources (s : State) : List Nat := (List.range 8).map s.dacSrc

/-- Every tap of the filter holds one value. -/
def preload (x : Word) : List Word := List.replicate 68 x

/-- Freezes the pins of channel c and switches its interpolator to the selected source (R434, R435). A hold of R440 leaves the
interpolator the frames it has received (R441). -/
def State.dacSwitch (s : State) (c : Nat) (change : Bool) : State :=
  let h := s.dacCh c
  let audio := decide (s.dacSrc c = 2)
  s.setDacCh c { h with
    pin := s.dacPins c, hold := true
    settle := if audio then settleFrames h.filt + 1 else 0
    taps := if audio || change then h.taps else preload (s.dacTrim c (s.dacSelected c))
    changeHold := if h.hold then h.changeHold && change else change }

/-- The output stage is switched directly: into or out of OFF, and into MUTE (R433, R445). -/
def State.dacDirect (s : State) (c : Nat) : State :=
  let h := s.dacCh c
  s.setDacCh c { h with
    hold := false, settle := 0, changeHold := false
    taps := if s.dacSrc c = 0 then [] else preload (s.dacTrim c (s.dacSelected c)) }

/-- The deglitcher's answer to the changes of source since `old` (R433 to R435). -/
def State.dacSourceChanged (s : State) (old : List Nat) : State :=
  iter (fun c t =>
    let was := old.getD c 0
    let now := t.dacSrc c
    if was = now then t
    else if was = 0 ∨ now = 0 ∨ now = 6 then t.dacDirect c
    else t.dacSwitch c false) 0 s.dacChannels s

/-- Step 1 of R424 for one channel: the interpolator takes one value, and a settling hold counts a frame. -/
def State.dacTake (c : Nat) (s : State) : State :=
  let h := s.dacCh c
  if s.dacSrc c = 0 then s
  else s.setDacCh c { h with
    taps := (s.dacTrim c (s.dacSelected c) :: h.taps).take 68, settle := h.settle - 1 }

/-- The holding register of channel c receives its frame, or zero with EN = 0 (R423, R424). -/
def State.dacHolding (c : Nat) (s : State) : State :=
  s.setDacCh c { s.dacCh c with holding := tget 0 s.col.readout (72 + c) }

/-- A load strobe of group g copies its holding registers (R426, R427). -/
def State.dacLoad (s : State) (g : Nat) : State :=
  iter (fun c t => t.setDacCh c { t.dacCh c with input := (t.dacCh c).holding }) (4 * g) 4 s

/-- SRC of group g. -/
def State.dacStrobeSrc (s : State) (g : Nat) : Nat := s.rf (Reg.DAC_GCFG g) 5 4

/-- A load strobe from a source: the groups on that source copy. -/
def State.dacStrobeFrom (s : State) (src : Nat) (g1 g0 : Bool) : State :=
  let s := if g0 ∧ s.dacStrobeSrc 0 = src then s.dacLoad 0 else s
  if g1 ∧ s.dacStrobeSrc 1 = src then s.dacLoad 1 else s

/-- A frame marked invalid holds every channel that is not OFF (R440). -/
def State.dacInvalid (c : Nat) (s : State) : State := if s.dacSrc c = 0 then s else s.dacSwitch c true

/-- Steps 2 and 3 of R424, after the read-out has been made, with the held frames of R440. -/
def State.dacReadOut (s : State) : State :=
  let s := iter State.dacHolding 0 s.dacChannels s
  let s := s.dacStrobeFrom 0 true true
  if s.col.readoutInvalid then
    (if s.rb Reg.DAC_CTRL 0 then s.count (Reg.DAC_CNT 0) else s) |> iter State.dacInvalid 0 s.dacChannels
  else s

/-- A changed filter takes effect: a channel on AUDIO passes through the sequence of R434, also one that R440 holds (R430). -/
def State.dacFilter (c : Nat) (s : State) : State :=
  let f := s.rf (Reg.DAC_GCFG (dacGroup c)) 1 0
  let h := s.dacCh c
  if h.filt = f then s
  else
    let t := s.setDacCh c { h with pin := s.dacPins c, filt := f }
    if s.dacSrc c = 2 then
      let x := t.dacCh c
      t.setDacCh c { x with hold := true, settle := settleFrames f + 1, changeHold := false }
    else if s.dacSrc c = 0 then t
    else t.setDacCh c { t.dacCh c with taps := preload (s.dacTrim c (s.dacSelected c)) }

/-- Changed filters take effect at step 4 of R424. -/
def State.dacFilters (s : State) : State := iter State.dacFilter 0 s.dacChannels s

/-- The settle time of a held channel has passed: the hold is released and the pins step (R434, R440, R441). -/
def State.dacRelease (s : State) (c : Nat) : State :=
  let h := s.dacCh c
  if h.hold ∧ h.settle = 0 ∧ s.col.readoutInvalid = false ∧ c < s.dacChannels then
    let t := s.setDacCh c { h with hold := false, changeHold := false }
    if h.changeHold then t else t.count (Reg.DAC_CNT 1)
  else s

/-- The sections that clock the modulators run: from step 3 of R617 on, whatever MCK_CTRL.EN (R450). -/
def State.sectionsRun (s : State) : Bool := s.awake || decide (s.phase = .waitRecords)

/-- The synchroniser of DAC_CLR_N takes the level at the pin (R432, R450; DESIGN CHOICE, unsafe: log entry 60). -/
def State.dacClrSample (s : State) : State :=
  if s.variant = .c ∨ s.clrPin = s.clrSeen ∨ s.sectionsRun = false then s
  else
    let old := s.dacSources
    let t : State := { s with clrSeen := s.clrPin }
    let t := if s.clrPin then t else ((t.orReg Reg.DAC_STAT (onebit 3)).count (Reg.DAC_CNT 3)).causeBoth 13
    t.dacSourceChanged old

/-- DAC_CLR_N changes level (R431, R432). -/
def State.dacClr (s : State) (level : Bool) : State :=
  match s.variant with
  | .c => s
  | .f => { s with clrPin := level }.dacClrSample

/-- Supervision acts on channel c (R442). -/
def State.dacSupervised (s : State) (c : Nat) : Bool :=
  s.rb (Reg.DAC_CH_CFG c) 28 && decide (s.dacSrc c ≠ 0) && decide (s.dacSrc c ≠ 6)

/-- Strobes in a row, this one included, at which a comparator is asserted; `prev` up to the strobe before (R442). A second
reading at one strobe counts nothing more. -/
def cmpRun (again supervised asserted : Bool) (prev now : Nat) : Nat :=
  if !(supervised && asserted) then 0 else if again then max now 1 else prev + 1

/-- A condition of channel c qualifies: bit b of DAC_CH_STAT, the latch, the count and the cause (R442, R443). -/
def State.dacFault (s : State) (c b : Nat) : State :=
  let a := Reg.DAC_CH_STAT c
  let act := s.rf (Reg.DAC_CH_CFG c) 27 26
  let t := s.orReg a (onebit b)
  let t := if act = 1 ∨ act = 2 then t.orReg a (onebit 3) else t
  ((t.count (Reg.DAC_CNT 2)).orReg Reg.DAC_STAT (onebit 2)).causeBoth 13

/-- The comparators of channel c as read at a strobe: a condition qualifies at the DEB + 1st strobe in a row at which it is
present, while supervision acts (R442, R443). -/
def State.dacQualify (s : State) (c : Nat) (openLoad window : Bool) : State :=
  if s.dacChannels ≤ c then s
  else
    let old := s.dacSources
    let h := s.dacCh c
    let sup := s.dacSupervised c
    let again := decide (h.cmpAt = some s.strobes)
    let next := decide (h.cmpAt = some (s.strobes - 1))
    let o := cmpRun again sup openLoad (if next then h.openRun else 0) h.openRun
    let w := cmpRun again sup window (if next then h.winRun else 0) h.winRun
    let deb := s.rf (Reg.DAC_CH_CFG c) 25 22
    let was1 := h.openDone && decide (0 < o) && (again || next)
    let was2 := h.winDone && decide (0 < w) && (again || next)
    let t := (s.setRf (Reg.DAC_CH_STAT c) 5 4 (2 * b2n openLoad + b2n window)).setDacCh c
      { h with cmpAt := some s.strobes, openRun := o, winRun := w
               openDone := was1 || decide (deb < o), winDone := was2 || decide (deb < w) }
    let t := if deb < o ∧ was1 = false then t.dacFault c 1 else t
    let t := if deb < w ∧ was2 = false then t.dacFault c 2 else t
    t.dacSourceChanged old

/-- A write to DAC_CH_STAT: FLATCH clears only with both comparators released (R444). -/
def State.dacStatWrite (s : State) (c : Nat) (w : Word) : State :=
  let a := Reg.DAC_CH_STAT c
  let x := s.reg a
  let m := if fld x 5 4 = 0 then w &&& 0xE else w &&& 0x6
  s.setReg a (x &&& ~~~ m)

/-- DAC_CH_STAT as read. -/
def State.dacChStat (s : State) (c : Nat) : Word :=
  setFld (setFld (s.reg (Reg.DAC_CH_STAT c)) 31 29 (s.dacSrc c)) 28 28 (b2n (s.dacCh c).hold)

/-- DAC_STAT as read. -/
def State.dacStat (s : State) : Word :=
  let held := (List.range 8).any fun c => (s.dacCh c).hold
  let pin := match s.variant with | .f => s.clrSeen | .c => true
  setFld (setFld (s.reg Reg.DAC_STAT) 1 1 (b2n held)) 0 0 (b2n pin)

/-! ### The mute ramp (R445, R446) -/

/-- The mute ramp moves by one frame. -/
def State.muteStep (s : State) : State :=
  match s.mute with
  | none => s
  | some (n, len) => if n < len then { s with mute := some (n + 1, len) } else s

/-- A value under the gain of the ramp's present frame. -/
def State.muted (s : State) (x : Word) : Word := wordI (rnd (x.toInt * s.muteGain) 31)

/-- The value that channel c has taken at this strobe takes the ramp's first gain. -/
def State.muteTaken (c : Nat) (s : State) : State :=
  let h := s.dacCh c
  match h.taps with
  | [] => s
  | x :: l => s.setDacCh c { h with taps := s.muted x :: l }

/-- The mute ramp starts after the strobe's transactions, when the level still calls for it: frame 0 is the one that this
strobe has taken and read out (R445, R623, R624). -/
def State.muteBegin (s : State) (level : Nat) : State :=
  if s.mute.isNone ∧ 3 ≤ level then
    let t : State := { s with mute := some (0, s.muteFrames) }
    let t : State := { t with col := { t.col with
      readout := t.col.readout.foldl (fun u e => tput 0 u e.1 (if e.1 < 66 then t.muted e.2 else e.2)) [] } }
    iter State.muteTaken 0 t.dacChannels t
  else s

/-- A channel that is not OFF holds zero: every tap of its filter. -/
def State.dacZero (c : Nat) (s : State) : State :=
  if s.dacSrc c = 0 then s else s.setDacCh c { s.dacCh c with taps := preload 0 }

/-- After N frames the channels hold zero as MUTE. -/
def State.muteEnd (s : State) : State :=
  match s.mute with
  | some (n, len) =>
    if n = len then iter State.dacZero 0 s.dacChannels { s with mute := some (len + 1, len) } else s
  | none => s

/-- The level has fallen below 3: the channels return to their sources (R446, R625). -/
def State.muteClear (s : State) : State :=
  if s.mute.isSome then
    let old := s.dacSources
    ({ s with mute := none } : State).dacSourceChanged old
  else s

end Sys2Proof.Machine
end

