-- ==== Sys2Proof/Machine/Events.lean ====
section
/-! DEFINITION. The event unit: sources, stamps, entry checks, UMP and MIDI 1.0 parsing, the heap and its release,
and the host time mappings (R55 to R101, R674). -/

namespace Sys2Proof.Machine

/-! ### Counters and sources -/

/-- Counts a discard in EVT_CNT i and sets EVT_STAT.DISCARD (R101). -/
def State.evtDiscard (s : State) (i : Nat) : State := (s.count (Reg.EVT_CNT i)).evtFlag 2

/-- The agent of a source (R55). -/
def sourceAgent (src : Nat) : Nat := if src < 4 then 1 else if src < 8 then 2 else 3

/-- TBASE of a source. -/
def State.srcBase (s : State) (src : Nat) : Nat := s.rf (Reg.EVT_SRC_MODE src) 2 1

/-- DELAY of a source. -/
def State.srcDelay (s : State) (src : Nat) : Nat := s.rf (Reg.EVT_SRC src) 15 0

/-- Heap entries of a port's sources (R95). -/
def State.heapOf (s : State) (p : Nat) : Nat :=
  sumOf (fun e => if e.src / 4 = p then 1 else 0) s.heap

/-- EVT can take `n` events from a source now (R56, R58, R95, R97). -/
def State.evtRoom (s : State) (src n : Nat) : Bool :=
  s.rb Reg.EVT_CTRL 0 && s.rb (Reg.EVT_SRC_MODE src) 0 &&
  decide (s.heap.length + n ≤ 16384) &&
  (if src < 4 then decide (s.heapOf 0 + n ≤ s.rf Reg.EVT_HEAPQ 14 0)
   else if src < 8 then decide (s.heapOf 1 + n ≤ s.rf Reg.EVT_HEAPQ 30 16)
   else true)

/-- "As soon as possible" (R60). -/
def asap : Nat := 0xFFFFFFFFFFFFFFFF

/-- R79: a host timestamp in engine ticks under the mapping in force. -/
def State.hostTicks (s : State) (p h delay : Nat) : Nat :=
  let h0 := (s.reg64 (Reg.EVT_HMAP_H0 p)).toNat
  let e0 := (s.reg64 (Reg.EVT_HMAP_E0 p)).toNat
  let k := (s.reg64 (Reg.EVT_HMAP_K p)).toNat
  let dh : Int := (BitVec.ofInt 64 ((h : Int) - h0)).toInt
  (BitVec.ofInt 64 ((e0 : Int) + (dh * k + 2 ^ 39) / 2 ^ 40 + delay)).toNat

/-- The port of a source has a mode other than OFF and a valid mapping (R86). -/
def State.hostTimeOk (s : State) (src : Nat) : Bool :=
  decide (s.rf (Reg.EVT_HMAP_CTRL (src / 4)) 2 1 ≠ 0) && s.rb (Reg.EVT_HMAP_STAT (src / 4)) 2

/-- The stamp of an event at entry (R59, R60): none for "as soon as possible". -/
def State.stampOf (s : State) (src time : Nat) : Option Nat :=
  if time = asap then none
  else match s.srcBase src with
    | 0 => some time
    | 1 => some (s.hostTicks (src / 4) time (s.srcDelay src))
    | _ => some (s.evtNow + s.srcDelay src)

/-! ### Entry (R674) -/

/-- The part that an item names, if any (R65). -/
def Item.part : Item → Option Nat
  | .native type part _ _ => if type = 0x20 ∨ type = 0 then none else some part.toNat
  | _ => none

/-- The owner check (R65): the counter of a failure, if it fails. -/
def State.ownerFails (s : State) (src p : Nat) : Option Nat :=
  let own := s.rf (Reg.VAL_PART_OWNER p) 31 30
  let ag := sourceAgent src
  if own = 0 then some 2
  else if ag ≠ 3 ∧ own ≠ ag then some 3
  else none

/-- Inserts a judged event into the heap (R56, R89). -/
def State.heapInsert (s : State) (src : Nat) (stamp : Option Nat) (item : Item) : State :=
  let n := s.heap.length + 1
  let e : HeapEntry := { stamp := stamp, src := src, seq := s.heapSeq, item := item }
  let t : State := { s with heap := s.heap ++ [e], heapSeq := s.heapSeq + 1 }
  let t := t.peak Reg.EVT_HEAP 30 16 n
  if n = 16384 then t.evtFlag 1 else t

/-- Checks 4 to 6 of R674 and the entry of an item. -/
def State.enterItem (s : State) (src time : Nat) (item : Item) : State :=
  match item.part.bind (s.ownerFails src) with
  | some c => s.evtDiscard c
  | none =>
    if s.srcBase src = 1 ∧ s.hostTimeOk src = false then s.evtDiscard 8
    else
      let stamp := s.stampOf src time
      match stamp with
      | some t => if s.evtNow + 2 ^ 31 < t then s.evtDiscard 6 else s.heapInsert src stamp item
      | none => s.heapInsert src none item

/-- A native event's type and reserved bits are as R63 and R64 ask. -/
def nativeOk (type : Nat) (h : BitVec 16) (v : Word) : Bool :=
  match type with
  | 0x00 => decide (h = 0) && decide (v = 0)
  | 0x01 => true
  | 0x02 => decide (fld v 31 16 = 0)
  | 0x03 => decide (v = 0)
  | 0x04 => true
  | 0x05 => true
  | 0x06 => true
  | 0x07 => true
  | 0x08 => decide (fld v 31 2 = 0)
  | 0x10 =>
    decide (h.toNat / 2 ^ 14 ≠ 3) && (decide (h.toNat / 2 ^ 14 ≠ 0) || decide (h.toNat < 128))
  | 0x11 => decide (h = 0)
  | 0x12 => decide (h = 0)
  | 0x13 => decide (h = 0) && decide (fld v 30 22 = 0)
  | 0x14 => decide (h = 0) && decide (v = 0)
  | 0x15 => decide (h = 0) && decide (v = 0)
  | 0x20 => true
  | _ => false

/-- Takes one native event, its 16 bytes as a number with TIME in the upper 64 bits (R62, R64, R674). -/
def State.takeNative (s : State) (src : Nat) (x : BitVec 128) : State :=
  let type := x.extractLsb' 48 6
  let part := x.extractLsb' 54 10
  let h := x.extractLsb' 32 16
  let v := x.extractLsb' 0 32
  if nativeOk type.toNat h v = false then s.evtDiscard 5
  else if type = 0 then s
  else s.enterItem src (x.extractLsb' 64 64).toNat (.native type part h v)

/-! ### UMP (R67 to R72) -/

/-- Words of a packet by its message type (R67). -/
def umpLen (w : Word) : Nat :=
  match fld w 31 28 with
  | 0x0 => 1
  | 0x1 => 1
  | 0x2 => 1
  | 0x6 => 1
  | 0x7 => 1
  | 0x3 => 2
  | 0x4 => 2
  | 0x8 => 2
  | 0x9 => 2
  | 0xA => 2
  | 0xB => 3
  | 0xC => 3
  | _ => 4

/-- The repeated low bits of min-centre-max upscaling. -/
def upRepeat (rep bits : Nat) : Nat → Nat → Nat
  | _, 0 => 0
  | acc, n + 1 => if acc = 0 then 0 else acc ||| upRepeat rep bits (acc / 2 ^ bits) n

/-- Min-centre-max upscaling of the MIDI 2.0 specification, from `src` to `dst` bits (R68). -/
def upscale (v src dst : Nat) : Nat :=
  let up := dst - src
  let shifted := v * 2 ^ up
  if v ≤ 2 ^ (src - 1) then shifted
  else
    let rb := src - 1
    let rv := v % 2 ^ rb
    let rv := if rb < up then rv * 2 ^ (up - rb) else rv / 2 ^ (rb - up)
    shifted ||| upRepeat rv rb rv 32

/-- What a packet becomes (R67, R68). -/
inductive UmpOut where
  | ignore
  | unsup
  | service (item : Item)
  /-- A channel voice message: part-map index, type, handle, value. -/
  | voice (entry : Nat) (type : BitVec 6) (handle : BitVec 16) (value : Word)
deriving DecidableEq, Repr

/-- A control change (R69). -/
def ctrlOut (e idx : Nat) (v : Word) : UmpOut :=
  if idx = 120 then .voice e 0x15 0 0
  else if 123 ≤ idx then .voice e 0x14 0 0
  else .voice e 0x10 (BitVec.ofNat 16 idx) v

/-- A MIDI 1.0 channel voice packet (R68 to R70). -/
def midi1Out (w : Word) : UmpOut :=
  let e := fld w 27 24 * 16 + fld w 19 16
  let d1 := fld w 14 8
  let d2 := fld w 6 0
  let h := BitVec.ofNat 16 d1
  let n (x : Nat) : Word := BitVec.ofNat 32 x
  match fld w 23 20 with
  | 0x8 => .voice e 0x02 h (n (upscale d2 7 16))
  | 0x9 =>
    if d2 = 0 then .voice e 0x02 h 0x8000
    else .voice e 0x01 h (n (d1 * 512 * 65536 + upscale d2 7 16))
  | 0xA => .voice e 0x04 h (n (upscale d2 7 32))
  | 0xB => ctrlOut e d1 (n (upscale d2 7 32))
  | 0xC => .voice e 0x13 0 (n d1)
  | 0xD => .voice e 0x11 0 (n (upscale d1 7 32))
  | 0xE => .voice e 0x12 0 (n (upscale (d2 * 128 + d1) 14 32))
  | _ => .unsup

/-- A MIDI 2.0 channel voice packet (R68 to R70). -/
def midi2Out (attrPitch : Bool) (w0 w1 : Word) : UmpOut :=
  let e := fld w0 27 24 * 16 + fld w0 19 16
  let note := fld w0 14 8
  let h := BitVec.ofNat 16 note
  let n (x : Nat) : Word := BitVec.ofNat 32 x
  match fld w0 23 20 with
  | 0x0 => .voice e 0x06 h (n (fld w0 7 0 * 2 ^ 24 + fld w1 31 8))
  | 0x1 => .voice e 0x07 h (n (fld w0 7 0 * 2 ^ 24 + fld w1 31 8))
  | 0x2 => .voice e 0x10 (BitVec.ofNat 16 (0x4000 + note * 128 + fld w0 6 0)) w1
  | 0x3 => .voice e 0x10 (BitVec.ofNat 16 (0x8000 + note * 128 + fld w0 6 0)) w1
  | 0x6 => .voice e 0x05 h w1
  | 0x8 => .voice e 0x02 h (n (fld w1 31 16))
  | 0x9 =>
    let pitch := if attrPitch ∧ fld w0 7 0 = 3 then fld w1 15 0 else note * 512
    .voice e 0x01 h (n (pitch * 65536 + fld w1 31 16))
  | 0xA => .voice e 0x04 h w1
  | 0xB => ctrlOut e note w1
  | 0xC =>
    let bank := fld w1 14 8 * 128 + fld w1 6 0
    if bit w0 0 then .voice e 0x13 0 (n (2 ^ 31 + bank * 256 + fld w1 30 24))
    else .voice e 0x13 0 (n (fld w1 30 24))
  | 0xD => .voice e 0x11 0 w1
  | 0xE => .voice e 0x12 0 w1
  | 0xF => .voice e 0x08 h (n (fld w0 1 0))
  | _ => .unsup

/-- What one packet becomes, by its message type (R67). -/
def umpOut (attrPitch : Bool) (w0 w1 : Word) : UmpOut :=
  match fld w0 31 28 with
  | 0x0 => .ignore
  | 0x1 => .service (.ump 1 (w0.extractLsb' 24 4) w0 0)
  | 0x2 => midi1Out w0
  | 0x3 => .service (.ump 3 (w0.extractLsb' 24 4) w0 w1)
  | 0x4 => midi2Out attrPitch w0 w1
  | _ => .unsup

/-- Takes one packet from a source (R67, R72, R674). -/
def State.takeUmp (s : State) (src time : Nat) (w0 w1 : Word) : State :=
  match umpOut (s.rb Reg.EVT_CTRL 2) w0 w1 with
  | .ignore => s
  | .unsup => s.evtDiscard 4
  | .service item => s.enterItem src time item
  | .voice e type h v =>
    let m := s.reg (Reg.EVT_PARTMAP e)
    if bit m 16 = true ∧ fld m 31 30 = sourceAgent src then
      s.enterItem src time (.native type (BitVec.ofNat 10 (fld m 9 0)) h v)
    else s.evtDiscard 1

/-- The packets of a list of words, each as its first two words; none when the words do not fill the packets
exactly (R518). -/
def umpPackets : Nat → List Word → Option (List (Word × Word))
  | 0, [] => some []
  | 0, _ => none
  | fuel + 1, ws =>
    match ws with
    | [] => some []
    | w :: r =>
      let n := umpLen w
      if ws.length < n then none
      else (umpPackets fuel (ws.drop n)).map ((w, r.headD 0) :: ·)

/-! ### MIDI 1.0 bytes (R57) -/

/-- What a MIDI byte yields: a UMP, a service byte, or nothing, and the parser after it. -/
inductive MidiOut where
  | none
  | byte
  | packet (w : Word)
deriving DecidableEq, Repr

/-- Parses one byte of a MIDI 1.0 stream on a UMP group (R57). -/
def MidiParser.parse (m : MidiParser) (group : Nat) (b : Byte) : MidiOut × MidiParser :=
  let n := b.toNat
  let word (st d1 d2 : Nat) : Word := BitVec.ofNat 32 (0x20000000 + group * 2 ^ 24 + st * 65536 + d1 * 256 + d2)
  if 0xF8 ≤ n then (.byte, m)
  else if 0xF0 ≤ n then
    let sys : Option (Option Nat) := match n with
      | 0xF0 => some Option.none
      | 0xF1 => some (some 1)
      | 0xF2 => some (some 2)
      | 0xF3 => some (some 1)
      | _ => Option.none
    (.byte, { status := Option.none, data1 := Option.none, sys := sys })
  else if 0x80 ≤ n then (.none, { status := some b, data1 := Option.none, sys := Option.none })
  else match m.sys with
    | some Option.none => (.byte, m)
    | some (some k) => (.byte, { m with sys := if k ≤ 1 then Option.none else some (some (k - 1)) })
    | Option.none =>
      match m.status with
      | Option.none => (.none, m)
      | some st =>
        let hi := st.toNat / 16
        if hi = 0xC ∨ hi = 0xD then (.packet (word st.toNat n 0), m)
        else match m.data1 with
          | Option.none => (.none, { m with data1 := some b })
          | some d => (.packet (word st.toNat d.toNat n), { m with data1 := Option.none })

/-- EVT takes the oldest receive-queue entry of UA0 or UA1 (R57, R548). Its bytes carry no timestamp, so under TBASE = ENGINE
an event of this source is stamped 0 (R59; DESIGN CHOICE, unsafe: log entry 59). -/
def State.takeUart (s : State) (u : Nat) : State :=
  if s.rf (Reg.UART_CFG u) 28 26 ≠ 0 ∨ s.evtRoom (8 + u) 1 = false then s
  else
    match (s.uart u).rxq with
    | [] => s
    | e :: q =>
      let s := s.setUart u { s.uart u with rxq := q }
      if fld e 20 16 ≠ 0 then { s with midi := tput {} s.midi u {} }
      else
        let r := (tget {} s.midi u).parse (s.rf (Reg.EVT_SRC (8 + u)) 19 16) (e.extractLsb' 0 8)
        let s := { s with midi := tput {} s.midi u r.2 }
        match r.1 with
        | .none => s
        | .byte => s.enterItem (8 + u) 0 (.midi (e.extractLsb' 0 8))
        | .packet w => s.takeUmp (8 + u) 0 w 0

/-! ### Release (R60, R66, R89 to R92, R98, R99) -/

/-- The ordering stamp of an entry at the control tick starting at frame `f` (R60). -/
def HeapEntry.at (e : HeapEntry) (f : Nat) : Nat := e.stamp.getD (f * 256)

/-- The rank of a part priority in the release order: items that name no part come last (R89). -/
def State.itemPrio (s : State) (i : Item) : Nat :=
  match i.part with
  | some p => s.partPrio p + 1
  | none => 0

/-- Entry a is released before entry b at the control tick starting at frame `f` (R89). -/
def State.releasedBefore (s : State) (f : Nat) (a b : HeapEntry) : Bool :=
  let pa := s.rf (Reg.EVT_SRC a.src) 26 24
  let pb := s.rf (Reg.EVT_SRC b.src) 26 24
  if a.at f ≠ b.at f then decide (a.at f < b.at f)
  else if pa ≠ pb then decide (pb < pa)
  else if s.itemPrio a.item ≠ s.itemPrio b.item then decide (s.itemPrio b.item < s.itemPrio a.item)
  else decide (a.seq < b.seq)

/-- Inserts an entry in the release order. -/
def State.insertDue (s : State) (f : Nat) (e : HeapEntry) : List HeapEntry → List HeapEntry
  | [] => [e]
  | x :: l => if s.releasedBefore f e x then e :: x :: l else x :: s.insertDue f e l

/-- The events due before tick `limit`, in release order (R89, R90). -/
def State.dueList (s : State) (f limit : Nat) : List HeapEntry :=
  (s.heap.filter fun e => match e.stamp with
    | some t => decide (t < limit)
    | none => true).foldr (s.insertDue f) []

/-- Forwards an item to the service queue of the selected Stage Engine (R99, R417). -/
def State.toService (s : State) (e : HeapEntry) (stamp : Nat) : State :=
  let n := s.rf Reg.EVT_CTRL 8 8
  let g := s.stg n
  if 256 ≤ g.svcq.length then (s.count (Reg.EVT_CNT 7)).evtFlag 0
  else s.setStg n { g with svcq := g.svcq ++ [(stamp, e.src, e.item)] }

/-- The allocator takes events (R141). -/
def State.valOn (s : State) : Bool := s.rb Reg.VAL_CTRL 0

/-- An event discarded under R141. -/
def State.valRefuse (s : State) (isNote : Bool) : State :=
  let s := s.count (Reg.VAL_CNT 3)
  if isNote then s.valFlag 0 else s

/-- Applies a released native event at its onset, an engine time in ticks (R63, R115). -/
def State.applyNative (s : State) (type p : Nat) (h : BitVec 16) (v : Word) (onset : Nat) : State :=
  match type with
  | 0x01 =>
    if s.valOn then
      s.noteOn { part := p, handle := h, pitch := v.extractLsb' 16 16, vel := v.extractLsb' 0 16, onset := onset }
    else s.valRefuse true
  | 0x02 => if s.valOn then s.noteOff p h (v.extractLsb' 0 16) onset else s.valRefuse false
  | 0x03 => if s.valOn then s.noteCut p h onset else s.valRefuse false
  | 0x04 => if s.valOn then s.perNote p h fun x => { x with press := v } else s.valRefuse false
  | 0x05 => if s.valOn then s.perNote p h fun x => { x with bend := v } else s.valRefuse false
  | 0x06 => if s.valOn then s.perNote p h (s.captureNote p false v) else s.valRefuse false
  | 0x07 => if s.valOn then s.perNote p h (s.captureNote p true v) else s.valRefuse false
  | 0x08 => if s.valOn then s.perNote p h fun x => x.manage v else s.valRefuse false
  | 0x10 => s.partCtrl p h v onset
  | 0x11 => s.setPart p { s.part p with press := v }
  | 0x12 => s.setPart p { s.part p with bend := v }
  | 0x14 => if s.valOn then s.releaseAll p onset else s.valRefuse false
  | 0x15 => if s.valOn then s.cutAll p onset else s.valRefuse false
  | _ => s

/-- Delivers a released item (R63, R67). -/
def State.deliver (s : State) (e : HeapEntry) (f onset : Nat) : State :=
  match e.item with
  | .native type part h v =>
    if type = 0x13 ∨ type = 0x20 then s.toService e (e.at f)
    else s.applyNative type.toNat part.toNat h v onset
  | _ => s.toService e (e.at f)

/-- A note-on (R91). -/
def Item.isNoteOn : Item → Bool
  | .native type _ _ _ => decide (type = 0x01)
  | _ => false

/-- Releases one entry of control tick `tick`, its onset counting from frame `f`; `deferred` for one released after its tick's
processing. An "as soon as possible" event carries the stamp of the tick that orders it (R60, R66, R91, R98). -/
def State.releaseOne (s : State) (tick f : Nat) (deferred : Bool) (e : HeapEntry) : State :=
  let s := { s with heap := s.heap.filter fun x => decide (x.seq ≠ e.seq) }
  match e.item.part.bind (s.ownerFails e.src) with
  | some c => s.evtDiscard c
  | none =>
    let late := match e.stamp with
      | some t => deferred || decide (t < f * 256)
      | none => false
    let onset := if late then f * 256 else e.at f
    if late then
      let s := ((s.count (Reg.EVT_CNT 0)).evtFlag 3).det 2
      if s.rb (Reg.EVT_SRC_MODE e.src) 7 && e.item.isNoteOn then s else s.deliver e tick onset
    else s.deliver e tick onset

/-- The release of control tick `tick` is not paused any more. -/
def State.unpause (s : State) (tick : Nat) : State :=
  { s with paused := s.paused.filter fun x => decide (x.1 ≠ tick) }

/-- Releases the entries given of control tick `tick`, in order, until the intake is full; onsets count from frame `f` (R98). -/
def State.releaseList (tick f : Nat) (deferred : Bool) : List HeapEntry → State → State
  | [], s => s.unpause tick
  | e :: l, s =>
    if s.intakeFull then { s with paused := (tick, (e :: l).map (·.seq)) :: (s.unpause tick).paused }
    else State.releaseList tick f deferred l (s.releaseOne tick f deferred e)

/-- Releases the events due at the control tick starting at frame `f`, at most as many as RELMAX allows; one that the owner
check of R66 discards at its release counts among those (R90, R92; DESIGN CHOICE, unsafe: log entry 59). What an earlier
block left paused is due with them. -/
def State.releaseTick (f : Nat) (s : State) : State :=
  let s := { s with paused := s.paused.filter fun x => decide (x.1 / 16 = f / 16) }
  if s.rb Reg.EVT_CTRL 0 then
    State.releaseList f f false ((s.dueList f ((f + s.ctick) * 256)).take ((s.rf Reg.EVT_CTRL 15 12 + 1) * 512)) s
  else s

/-- The first frame of the next control tick to be processed (R24). -/
def State.nextTick (s : State) : Nat :=
  let c := max 16 s.ctick
  (s.frame / c + 1) * c

/-- The events of a paused control tick that are still in the heap, in the order that they had when it was processed (R89). -/
def State.leftOf (s : State) (seqs : List Nat) : List HeapEntry :=
  seqs.filterMap fun n => s.heap.find? fun e => decide (e.seq = n)

/-- The intake has been drained, unless every ready list is full: while it has room again the paused events are released,
oldest tick first. They are late, and their onset is that of the next control tick to be processed. A tail that takes its
victim's place renders the block under way (R53, R98, R136; log entry 36). -/
def State.deferredRelease (s : State) : State :=
  if s.rb Reg.EVT_CTRL 0 then
    let t := s.paused.foldr (fun x t =>
      State.releaseList x.1 t.nextTick true (t.leftOf x.2) t) s.drainIntake
    if t.tails = s.tails then t else ((t.tails.map (·.1)).foldl (State.createTail t.block) t).stampAll
  else s

/-! ### Host time (R79 to R88, R498, R499) -/

/-- K_nom of R80. -/
def State.kNom (s : State) : Nat := (2 * (s.fs * 256 * 2 ^ 40) + 1000000000) / 2000000000

/-- N_P of R81: the frame strobes between two dialogues. -/
def State.ptmPeriod (s : State) (p : Nat) : Nat := (2 * (s.rf (Reg.EVT_HMAP_CTRL p) 15 8 * s.fs) + 1000) / 2000

/-- The port makes PTM dialogues (R81, R498, R499). -/
def State.ptmReady (s : State) (p : Nat) : Bool :=
  let h := s.port p
  decide (s.rf (Reg.EVT_HMAP_CTRL p) 2 1 = 1) && h.ptmEnable && decide (h.link ≠ .down) &&
    decide (h.link ≠ .reset) && !h.d3hot

/-- Puts a mapping in force (R88). -/
def State.mapIs (s : State) (p h0 e0 k : Nat) : State :=
  ((s.setReg64 (Reg.EVT_HMAP_H0 p) (BitVec.ofNat 64 h0)).setReg64 (Reg.EVT_HMAP_E0 p) (BitVec.ofNat 64 e0)).setReg64
    (Reg.EVT_HMAP_K p) (BitVec.ofNat 64 k)

/-- reanchor of R81. -/
def State.reanchor (s : State) (p h e : Nat) : State :=
  (s.mapIs p h e s.kNom).setHm p { s.hm p with href := BitVec.ofNat 64 h, eref := BitVec.ofNat 64 e }

/-- Sets JUMP_BACK (0) or JUMP_FWD (1) and the cause of vector 15. -/
def State.jumped (s : State) (p b : Nat) : State := (s.orReg (Reg.EVT_HMAP_STAT p) (onebit b)).cause p 15

/-- j of R81, an s64: how far the host time of a pair stands from what the mapping predicts. -/
def State.ptmError (s : State) (p h e : Nat) : Int :=
  let h0 : Int := (s.reg64 (Reg.EVT_HMAP_H0 p)).toNat
  let e0 : Int := (s.reg64 (Reg.EVT_HMAP_E0 p)).toNat
  let k : Nat := (s.reg64 (Reg.EVT_HMAP_K p)).toNat
  diffS64 h (h0 + (((e : Int) - e0) * 2 ^ 40 + (k / 2 : Nat)) / k)

/-- The pair re-anchors the mapping (R81). -/
def State.ptmAnchors (s : State) (p h e : Nat) : Bool :=
  !s.rb (Reg.EVT_HMAP_STAT p) 2 || decide (1000000 ≤ (s.ptmError p h e).natAbs)

/-- on pair of R81. -/
def State.ptmUpdate (s : State) (p h e : Nat) : State :=
  if s.rb (Reg.EVT_HMAP_STAT p) 2 = false then (s.reanchor p h e).setRf (Reg.EVT_HMAP_STAT p) 2 2 1
  else
    let k : Nat := (s.reg64 (Reg.EVT_HMAP_K p)).toNat
    let j := s.ptmError p h e
    if j ≤ -1000000 then (s.jumped p 0).reanchor p h e
    else if 1000000 ≤ j then (s.jumped p 1).reanchor p h e
    else
      let m := s.hm p
      let dh := diffS64 h m.href.toNat
      if 1000000000 ≤ dh then
        let k' := divr (((e : Int) - m.eref.toNat) * 2 ^ 40) dh
        (s.mapIs p h e (BitVec.ofInt 64 k').toNat).setHm p
          { m with href := BitVec.ofNat 64 h, eref := BitVec.ofNat 64 e }
      else s.mapIs p h e k

/-- A frame strobe counts towards the next dialogue of each port; every N_P-th is one at which a dialogue starts. N_P is taken
anew for the next strobe (R81). Strobes count from the one after which dialogues are first made: while PTM mode, PTM Enable
or the link is missing none counts (DESIGN CHOICE, safe; log entry 59). -/
def State.ptmStrobe (s : State) : State :=
  iter (fun p t =>
    let h := t.hm p
    let n := if t.ptmReady p then h.count + 1 else 0
    let due := t.ptmReady p && decide (0 < h.np) && decide (h.np ≤ n)
    t.setHm p { h with due := due, count := if due then 0 else n, np := t.ptmPeriod p }) 0 2 s

/-- A change of engine rate makes both mappings invalid (R84). -/
def State.mapsInvalid (s : State) : State :=
  iter (fun p t => t.setRf (Reg.EVT_HMAP_STAT p) 2 2 0) 0 2 s

end Sys2Proof.Machine
end

