-- ==== Sys2Proof/Machine/Txn.lean ====
section
/-! DEFINITION. Semaphores (R528 to R530) and the transaction slots up to their checks (R531 to R534). -/

namespace Sys2Proof.Machine

/-! ### Semaphores -/

/-- SEM_TRY[n].HOLDER. -/
def holderCode : Option Req → Nat
  | none => 0
  | some q => Req.ix q + 1

/-- Requester q holds a semaphore above n. -/
def State.holdsAbove (s : State) (q : Req) (n : Nat) : Bool :=
  s.sems.any fun e => decide (n < e.1) && decide (e.2 = some q)

/-- Some semaphore is held. -/
def State.semsHeld (s : State) : Bool := s.sems.any fun e => e.2.isSome

/-- SEM_TRY[n] as q reads it: the word and what the try-acquire does (R528). -/
def State.semTry (s : State) (q : Req) (n : Nat) : Word × State :=
  match s.holder n with
  | some h =>
    if h = q then (onebit 31 ||| BitVec.ofNat 32 (holderCode (some h)), s)
    else (onebit 30 ||| BitVec.ofNat 32 (holderCode (some h)), s)
  | none =>
    if s.rb Reg.SEM_CTRL 0 && s.holdsAbove q n then (onebit 29, s.count Reg.SEM_CNT_ORDER)
    else (onebit 31 ||| BitVec.ofNat 32 (holderCode (some q)), s.setHolder n (some q))

/-- Semaphore n becomes free (R529). -/
def State.semFree (s : State) (n : Nat) : State := s.setHolder n none

/-- Every semaphore of requester q becomes free (R413, R503). -/
def State.semFreeAll (s : State) (q : Req) : State :=
  { s with sems := s.sems.filter fun e => decide (e.2 ≠ some q) }

/-- SEM_HELD. -/
def State.semHeld (s : State) : Dword :=
  BitVec.ofNat 64 (sumOf (fun e => if e.2.isSome then 2 ^ e.1 else 0) s.sems)

/-! ### Transaction slots -/

/-- TXN_STAT.STATE. -/
def TxnState.code : TxnState → Nat
  | .idle => 0
  | .opened => 1
  | .checking => 2
  | .pending => 3
  | .applied => 4
  | .failed => 5

/-- A state in which the transaction holds its write set (R534). -/
def TxnState.holds : TxnState → Bool
  | .opened => true
  | .checking => true
  | .pending => true
  | _ => false

/-- TXN_STAT[i]. -/
def State.txnStat (s : State) (i : Nat) : Word :=
  let x := s.txn i
  BitVec.ofNat 32 (x.st.code * 2 ^ 29 + b2n x.late * 2 ^ 28 + b2n x.ovf * 2 ^ 27 + x.entries.length)

/-- TXN_ERR[i]: the failure recorded since the latest OPEN (R531). -/
def State.txnErr (s : State) (i : Nat) : Word :=
  let x := s.txn i
  BitVec.ofNat 32 (x.errCode * 2 ^ 24 + b2n x.errApply * 2 ^ 23 + x.errIndex)

/-- A node or string word (R253). -/
def tableWord (a : Nat) : Bool :=
  (decide (0x05000000 ≤ a) && decide (a < 0x05440000)) || (decide (0x05800000 ≤ a) && decide (a < 0x05C00000))

/-- The blocks that no requester may stage: SYS, HPA, HPB, SEM, TXN, STG, SEC and NVM (R534). -/
def barredBlock (a : Nat) : Bool := [0x700, 0x701, 0x702, 0x703, 0x704, 0x716, 0x712, 0x713].contains (a / 0x10000)

/-- The word lies in the write set of some open, checking or pending transaction other than `but` (R534). -/
def State.inWriteSet (s : State) (but : Option Nat) (a : Nat) : Bool :=
  s.txns.any fun e => decide (some e.1 ≠ but) && e.2.st.holds && e.2.entries.any fun w => decide (w.1 = a)

/-- The cause of refusal of a staged entry, 0 when it is taken (R533, R534). -/
def State.stageCause (s : State) (i a : Nat) : Nat :=
  if (s.txn i).st ≠ .opened then 6
  else if a % 4 ≠ 0 then 2
  else if tableWord a = false ∧ findReg a = none then 3
  else if barredBlock a then 1
  else if s.inWriteSet (some i) a then 6
  else if 4096 ≤ (s.txn i).entries.length then 5
  else 0

/-- Stages an entry that was taken, or marks the overflow of one that found 4,096 before it (R534). -/
def State.stage (s : State) (i a : Nat) (v : Word) : State :=
  let x := s.txn i
  match s.stageCause i a with
  | 0 => s.setTxn i { x with entries := x.entries ++ [(a, v)] }
  | 5 => s.setTxn i { x with ovf := true }
  | _ => s

/-- OPEN is listed for the state (R531). -/
def State.txnMayOpen (s : State) (i : Nat) : Bool :=
  match (s.txn i).st with
  | .idle => true
  | .applied => true
  | .failed => true
  | _ => false

/-- OPEN (R531). -/
def State.txnOpen (s : State) (i : Nat) : State := s.setTxn i { st := .opened }

/-- ABORT, where the state lists it (R531): nothing is applied and the write set, which is that of the
state (R534), is released. -/
def State.txnAbort (s : State) (i : Nat) : State :=
  let x := s.txn i
  s.setTxn i { x with st := .idle, ring := none }

/-- A transaction of requester i entered APPLIED or FAILED: vector 7 of its host port (R493, R532). -/
def State.txnNotify (s : State) (i : Nat) : State := if i < 2 then s.cause i 7 else s

end Sys2Proof.Machine
end

