-- ==== Sys2Proof/Machine/Ve.lean ====
section
/-! DEFINITION. The Voice Engines: issue of bundles against local memory, wave fetches, window traps, trap entry,
faults, halts and recovery, and the end of a task (R143 to R252, R365). -/

namespace Sys2Proof.Machine

/-! ### The surroundings of a task -/

/-- An access lies in [lo, hi). -/
def inside (lo hi addr size : Nat) : Bool := decide (lo ≤ addr) && decide (addr + size ≤ hi)

/-- The trap area of a core whose memory starts at `base` (R161, R239). -/
def inTrapArea (tm : Bool) (base addr size : Nat) : Bool := tm && inside (base + 0xC00) (base + 0x1000) addr size

/-- The physical Wave Store address that a fetch of VEn reads (R350). -/
def State.clusterAddr (s : State) (n v : Nat) : Option Nat :=
  if v < 0x4000000 then (s.clusterBank (n / 8) (v / 0x400000)).map fun b => b * 0x400000 + v % 0x400000
  else none

/-- The surroundings of the task running on VEn (R143, R159, R163, R188, R306). A background task has no parameter frame
either, so PFR faults in every fixed task (R189; DEDUCED: log entry 40). -/
def State.veEnv (s : State) (n : Nat) (r : TaskRun) : Env :=
  let t := r.task
  let lo := t.region * 64
  let hi := lo + t.size * 64
  let fixed := decide (tagKind t.tag = 2)
  { se := false
    pfrOk := !fixed
    len := t.len
    trap := t.trap
    pfr := fun i => s.word (lmBase n + hi - 256 + 128 * t.frameNo + 4 * i)
    loadOk := fun a k => inside lo (if fixed then hi else hi - 256) a k || inTrapArea r.arch.tm 0 a k
    storeOk := fun a k _ => inside lo (hi - 256) a k || inTrapArea r.arch.tm 0 a k
    wave := s.clusterAddr n
    fifth := r.fifth }

/-- The bundle word at index pc of the program running on VEn (R168). -/
def State.veFetch (s : State) (n : Nat) (r : TaskRun) : Nat :=
  match (s.core n).resident.find? fun x => decide (x.prog = r.task.prog) with
  | some x => (s.dword (imBase n + 8 * (x.base + r.arch.pc))).toNat
  | none => 0

/-! ### Effects of an issued bundle -/

/-- The registers after a loaded value is written (R187). -/
def Arch.loaded (a : Arch) (d : Dst) (v : Dword) : Arch :=
  match d with
  | .none => a
  | .g p => a.setGp p (v.setWidth 32)
  | .z re im => (a.setGp re (v.setWidth 32)).setGp im ((v >>> 32).setWidth 32)
  | .acc key hi =>
    let x : Acc80 := tget 0 a.acc key
    a.setAcc key (if hi then v.extractLsb' 0 16 ++ x.extractLsb' 0 64 else x.extractLsb' 64 16 ++ v)

/-- A value of 4 or 8 bytes of local memory. -/
def State.lmRead (s : State) (n addr size : Nat) : Dword :=
  if size = 8 then s.dword (lmBase n + addr) else (s.word (lmBase n + addr)).setWidth 64

/-- The loads of a bundle, from memory as it stood before the bundle (R160). -/
def State.lmLoad (s : State) (n : Nat) (m : Option MemAccess) (a : Arch) : Arch :=
  match m with
  | some x => if x.store then a else a.loaded x.dst (s.lmRead n x.addr x.size)
  | none => a

/-- The store of a slot. -/
def State.lmStore (s : State) (n : Nat) (m : Option MemAccess) : State :=
  match m with
  | some x =>
    if x.store then
      if x.size = 8 then s.setDword (lmBase n + x.addr) x.data
      else s.setWord (lmBase n + x.addr) (x.data.setWidth 32)
    else s
  | none => s

/-- A wave fetch is issued: its first word is read, and its values will arrive. A second word is read as they do (R191,
R362). -/
def State.startFetch (s : State) (e : Env) (p : Slots) : Option Fetch × State :=
  match p.ma.wf with
  | none => (none, s)
  | some f =>
    let as := f.addrs.filterMap e.wave
    let sz := sampleBytes f.fmt
    let raw (i : Nat) : Nat := ((as[i]?).map fun a => s.sampleAt a sz).getD 0
    match as with
    | [a, b] =>
      if a / 8 = b / 8 then (some (f.start p.ma.claims (raw 0) (raw 1) none), s.countWords [a])
      else (some (f.start p.ma.claims (raw 0) 0 (some b)), s.countWords [a])
    | _ => (some (f.start p.ma.claims (raw 0) 0 none), s.countWords as)

/-- What TEND hands the collector (R203, R205). -/
def TaskRun.contribution (r : TaskRun) : Contribution :=
  { tag := r.task.tag, epoch := r.task.epoch, blk := r.task.blk, part := r.task.part,
    lanes := r.lanes.map fun e => (e.2.bus, e.2.frames) }

/-- The exception that a window move leaves to the spill engine (R227, R228). -/
def windowPending (f : Flow) : Pending :=
  match f with
  | .window none => .underflow
  | .window (some n) => if 7 ≤ n then .overflow else .none
  | _ => .none

/-- The running task after its bundle has taken effect. -/
def TaskRun.issued (r : TaskRun) (a : Arch) (p : Slots) (f : Option Fetch) : TaskRun :=
  let lanes := lanesAfter r.task.ramp r.task.blk r.lanes p.mb p.fl.flow
  let r := { r with
    arch := a, lanes := lanes, fetches := r.fetches ++ f.toList, occ := r.occ + 1
    pend := windowPending p.fl.flow, yielded := decide (p.fl.flow = .yield), fifth := false }
  match p.fl.flow with
  | .tend d => { r with ended := some r.contribution, doneInd := d }
  | _ => r

/-- Counts a task-block over 16 × COST, once (R329). -/
def State.noteOver (s : State) (n : Nat) (r : TaskRun) : State × TaskRun :=
  if r.task.overrun = false ∧ 16 * r.task.cost < r.occ then
    (s.count (Reg.PUP_CCNT n 2), { r with task := { r.task with overrun := true } })
  else (s, r)

/-- Stores the running task of VEn, with bundles issued and cycles of occupancy added. -/
def State.putRun (s : State) (n : Nat) (r : TaskRun) (bundles cycles : Nat) : State :=
  let q := s.noteOver n r
  let c := q.1.core n
  q.1.setCore n { c with
    run := some q.2, bundles := c.bundles + BitVec.ofNat 64 bundles, busy := c.busy + cycles
    st := if q.2.arch.tm then .trap else .run }

/-- A fault resolved by its handler, at RTE or TEND in the handler (R242). -/
def handled (a : Arch) (f : Flow) : Bool :=
  a.tm && (match f with
    | .rte => true
    | .tend _ => true
    | _ => false)

/-! ### Faults and halts -/

/-- VE_FAULT, VE_FAULTPC and VE_FAULTADDR (R251). DESIGN CHOICE, unsafe: PC and NPC of a bundle index of 4,096, the end of the
longest program, are 0: the index modulo 4,096 (log entry 61). -/
def State.veRecord (s : State) (n : Nat) (tag : BitVec 16) (halt : Bool) (tpc tnpc : Nat) (tcause taddr : Word) :
    State :=
  let w : Word := BitVec.ofNat 32 (fld tcause 7 0 * 2 ^ 24 + b2n halt * 2 ^ 23 + b2n (bit tcause 31) * 2 ^ 22 +
    b2n (bit tcause 30) * 2 ^ 21 + b2n (bit tcause 28) * 2 ^ 20 + tag.toNat)
  ((s.setReg (Reg.VE_FAULT n) w).setReg (Reg.VE_FAULTPC n)
    (BitVec.ofNat 32 (tnpc % 4096 * 65536 + tpc % 4096))).setReg (Reg.VE_FAULTADDR n) taddr

/-- The device kernel of a tag starts on core n (R303). -/
def State.startKernel (s : State) (n k : Nat) : State :=
  s.setCore n { s.core n with st := .run, kernel := some k, heldArch := none }

/-- A halt condition: its cycle counts towards the task's occupancy, every task on the core is discarded, and the recovery
kernel follows unless the core is held (R176, R244, R245, R247). Vector 25 is set (R493). -/
def State.veHalt (s : State) (n : Nat) (r : TaskRun) (tpc tnpc : Nat) (tcause taddr : Word) : State :=
  let s := (s.putRun n { r with occ := r.occ + 1 } 0 1).causeBoth 25
  let gone := r :: (s.core n).saved
  let s := ((s.veRecord n r.task.tag true tpc tnpc tcause taddr).count (Reg.VE_CNT n 1)).det 4
  let held := s.rb (Reg.VE_CTRL n) 0
  let c := s.core n
  let s := s.setCore n { c with
    st := .haltfault, run := none, saved := [], heldArch := if held then some r.arch else none }
  let s := gone.foldl (fun t x => t.taskFaulted x.task) s
  let s := if held then s else s.startKernel n 1
  s.closeEarly

/-- The running task ends by a fault without a handler (R243). -/
def State.veFaultEnd (s : State) (n : Nat) (r : TaskRun) (tpc tnpc : Nat) (tcause taddr : Word) : State :=
  let s := ((s.veRecord n r.task.tag false tpc tnpc tcause taddr).count (Reg.VE_CNT n 0)).det 4
  let s := s.setCore n { s.core n with st := .idle, run := none }
  (s.taskFaulted r.task).closeEarly

/-! ### The events of a core -/

/-- VEn issues the bundle at its PC (R172), or waits one cycle for wave fetch data: before the bundle, and after TEND or an
exception (R174, R205, R236; DESIGN CHOICE, safe: log entry 58). -/
def State.veIssue (s : State) (n : Nat) : State :=
  let c := s.core n
  match c.run with
  | none => s
  | some r =>
    if c.kernel.isSome then s
    else if r.ended.isSome ∨ r.pend ≠ .none then
      if r.fetches = [] then s else s.putRun n { r with occ := r.occ + 1 } 0 1
    else
      let e := s.veEnv n r
      let wp := s.free 3
      match issue r.arch e r.lanes r.fetches wp.1.toNat (s.veFetch n r) with
      | .wait =>
        let late := (slotsOf r.arch e (s.veFetch n r)).isFifth r.fetches r.fifth
        s.putRun n { r with occ := r.occ + 1, fifth := late } 0 1
      | .fault tpc tnpc tc ta => s.putRun n { r with pend := .fault tpc tnpc tc ta, occ := r.occ + 1 } 0 1
      | .halt tpc tnpc tc ta => s.veHalt n r tpc tnpc tc ta
      | .done a p =>
        let b := s.lmLoad n p.mb.access (s.lmLoad n p.ma.access a)
        let f := s.startFetch e p
        let t := (f.2.lmStore n p.ma.access).lmStore n p.mb.access
        let t := if handled r.arch p.fl.flow then t.count (Reg.VE_CNT n 2) else t
        let t := if p.fl.flow = .rte then { t with draw := wp.2.draw } else t
        t.putRun n (r.issued b p f.1) 1 1

/-- The k-th outstanding fetch of a task arrives, its values complete (R194); with the oldest, a fifth waits no more
(R207). -/
def TaskRun.arrive (r : TaskRun) (k : Nat) (f : Fetch) : TaskRun :=
  { r with arch := r.arch.arrive f, fetches := r.fetches.eraseIdx k, fifth := r.fifth && decide (k ≠ 0) }

/-- A wave fetch of VEn arrives. -/
def State.veArrive (s : State) (n k : Nat) : State :=
  match (s.core n).run with
  | none => s
  | some r =>
    match r.fetches[k]? with
    | none => s
    | some f =>
      let q := s.finishFetch f
      q.2.setCore n { q.2.core n with run := some (r.arrive k q.1) }

/-- The spill engine services a window overflow of VEn (R227, R230). The trap codes 0x10 and 0x11 of R233 are written to no
trap register by it (DEDUCED: log entry 40). -/
def State.veOverflow (s : State) (n : Nat) : State :=
  match (s.core n).run with
  | none => s
  | some r =>
    if r.pend = .overflow ∧ r.fetches = [] then
      let a := lmBase n + 64 * (r.arch.spillBase + r.arch.sd)
      let t := (r.arch.window0.zipIdx).foldl (fun t e => t.setWord (a + 4 * e.2) e.1) s
      (t.count (Reg.VE_CNT n 3)).putRun n { r with arch := r.arch.overflow, pend := .none, occ := r.occ + 12 } 12 12
    else s

/-- The spill engine services a window underflow of VEn (R228, R230). -/
def State.veUnderflow (s : State) (n : Nat) : State :=
  match (s.core n).run with
  | none => s
  | some r =>
    if r.pend = .underflow ∧ r.fetches = [] then
      let a := lmBase n + 64 * (r.arch.spillBase + (r.arch.sd - 1))
      let w := (List.range 16).map fun i => s.word (a + 4 * i)
      (s.count (Reg.VE_CNT n 3)).putRun n { r with arch := r.arch.underflow w, pend := .none, occ := r.occ + 12 } 12 12
    else s

/-- A fault on VEn enters the program's handler (R236). -/
def State.veTrap (s : State) (n : Nat) : State :=
  match (s.core n).run with
  | none => s
  | some r =>
    match r.pend with
    | .fault tpc tnpc tc ta =>
      let trap := (s.veEnv n r).trap
      if trap ≠ 0 ∧ r.fetches = [] then
        s.putRun n { r with arch := r.arch.enterTrap trap 0 tpc tnpc tc ta, pend := .none, occ := r.occ + 2 } 0 2
      else s
    | _ => s

/-- A fault on VEn has no handler (R243). -/
def State.veNoHandler (s : State) (n : Nat) : State :=
  match (s.core n).run with
  | none => s
  | some r =>
    match r.pend with
    | .fault tpc tnpc tc ta =>
      if (s.veEnv n r).trap = 0 ∧ r.fetches = [] then s.veFaultEnd n r tpc tnpc tc ta else s
    | _ => s

/-- The recovery kernel of VEn ends: it has issued 48,000 bundles and cleared the spill stack and the save area, whether
it passes or not (R176, R245, R246). -/
def State.veRecovered (s : State) (n : Nat) (pass : Bool) : State :=
  let c := s.core n
  if c.kernel = some 1 then
    let t := (s.clearBytes (lmBase n) 0xC00).clearBytes (lmBase n + 0x1000) 0x1000
    let t := t.setCore n { c with st := .idle, kernel := none, backAtBlock := true, bundles := c.bundles + 48000 }
    if pass then t else t.outOfService n
  else s

/-- A write to VE_CTRL: HOLD is stored; RESUME, or HOLD turned off, releases a held core (R245, R247, R250). -/
def State.veCtrl (s : State) (n : Nat) (w : Word) : State :=
  let t := s.setRf (Reg.VE_CTRL n) 0 0 (fld w 0 0)
  if (t.core n).st = .haltfault ∧ (bit w 1 = true ∨ bit w 0 = false) then t.startKernel n 1 else t

/-! ### The end of a task (R205, R365) -/

/-- A lower Voice Engine of core n's cluster waits at their port with a contribution (R371). -/
def State.portTaken (s : State) (n : Nat) : Bool :=
  s.cores.any fun e => decide (e.1 / 8 = n / 8) && decide (e.1 < n) &&
    (match e.2.run with
     | some r => r.ended.isSome && !r.delivered && decide (r.fetches = [])
     | none => false)

/-- How long the contribution waited at its port, from TEND on: a free value (R371, COL_DRAIN; log entries 4 and 8). -/
def State.portWait (s : State) : State :=
  let r := s.free 16
  (r.2.setRf Reg.COL_DRAIN 15 0 r.1.toNat).peak Reg.COL_DRAIN 31 16 r.1.toNat

/-- The collector judges the contribution of the task that has met TEND on VEn, in its turn at the cluster port (R366, R371);
buses that nothing else can feed close at once (R374). -/
def State.veDeliver (s : State) (n : Nat) : State :=
  let c := s.core n
  match c.run with
  | none => s
  | some r =>
    match r.ended with
    | none => s
    | some x =>
      if r.delivered ∨ r.fetches ≠ [] ∨ s.portTaken n = true then s
      else ((s.portWait.acceptContribution x).setCore n { c with run := some { r with delivered := true } }).closeEarly

/-- The done indication of a voice task: its end condition for the block, which comes before one that the fabric has reported
for a later block (R113, R205, R290). -/
def State.noteDone (s : State) (r : TaskRun) : State :=
  let v := r.task.tag.toNat % 8192
  let x := s.slot v
  if tagKind r.task.tag = 0 ∧ r.doneInd ∧ s.occupantTask v r.task = true then
    s.setSlot v { x with endBlk := some (min r.task.blk (x.endBlk.getD r.task.blk)) }
  else s

/-- A background run ends: RUN clears and the run is counted (R305). -/
def State.noteRunEnd (s : State) (r : TaskRun) : State :=
  if r.task.level = 3 then
    let t := r.task.tag.toNat % 256
    { s.setRf (Reg.PUP_TASK_CFG t) 1 1 0 with runs := tput 0 s.runs t ((tget 0 s.runs t + 1) % 2 ^ 32) }
  else s

/-- The task on VEn completes (R205, R365). -/
def State.veComplete (s : State) (n : Nat) : State :=
  let s := s.veDeliver n
  let c := s.core n
  match c.run with
  | none => s
  | some r =>
    if r.delivered then
      let t := s.setCore n { c with st := .idle, run := none }
      ((t.noteDone r).noteRunEnd r).closeEarly
    else s

/-! ### The debug window (R248) -/

/-- An accumulator half's word as ACCM stores it. -/
def accWord (v : Acc80) (hi : Bool) : Dword := if hi then (v.extractLsb' 64 16).signExtend 64 else v.setWidth 64

/-- VE_DBG_DATA for a held core's state; undefined selections read zero (R19, R248). `spill` is space 0x4 index 11. -/
def debugData (a : Arch) (spill : Nat) (sel : Word) : Dword :=
  let i := fld sel 7 0
  let w (x : Word) : Dword := x.setWidth 64
  let n (x : Nat) : Dword := BitVec.ofNat 64 x
  match fld sel 11 8 with
  | 0 => if i < 16 then w (tget 0 a.g i) else 0
  | 1 => if i < 128 then w (tget 0 a.win i) else 0
  | 2 => if i < 16 then accWord (tget 0 a.acc (i / 2)) (decide (i % 2 = 1)) else 0
  | 3 => if i < 36 then w (tget 0 a.ptr i) else 0
  | 4 =>
    match i with
    | 0 => w a.srWord
    | 1 => n a.wp
    | 2 => n a.rrb
    | 3 => n a.pc
    | 4 => w a.tpc
    | 5 => w a.tnpc
    | 6 => w a.tsr
    | 7 => w a.twp
    | 8 => w a.tcause
    | 9 => w a.taddr
    | 10 => n a.sd
    | 11 => n spill
    | _ => 0
  | 5 =>
    match a.loops.reverse[i]? with
    | some l => n (l.count * 2 ^ 32 + l.last % 4096 * 2 ^ 16 + l.start % 4096)
    | none => 0
  | _ => 0

/-! ### Status registers (R175, R176) -/

/-- VE_STAT as read. The fields that name a task read 0 in HALTFAULT as in IDLE and OFF; while a device kernel runs, whose tag
TASK shows, WP and LD read 0 and RCV reads 1 (R175, R226; DESIGN CHOICE, unsafe: log entry 61). -/
def State.veStat (s : State) (n : Nat) : Word :=
  let c := s.core n
  let st := match c.st with
    | .idle => 0
    | .run => 1
    | .trap => 2
    | .haltfault => 3
    | .off => 4
  match c.run with
  | some r =>
    BitVec.ofNat 32 (st * 2 ^ 29 + r.arch.wp * 2 ^ 26 + b2n r.arch.rcv * 2 ^ 25 + r.arch.loops.length * 2 ^ 22 +
      r.task.tag.toNat)
  | none =>
    match c.kernel with
    | some k => BitVec.ofNat 32 (st * 2 ^ 29 + 2 ^ 25 + (kernelTag k).toNat)
    | none => BitVec.ofNat 32 (st * 2 ^ 29)

end Sys2Proof.Machine
end

