-- ==== Sys2Proof/Machine/Stage.lean ====
section
/-! DEFINITION. The Stage Engines but for the issue of their bundles: loads, starts and stops, faults and restart,
waiting, event sends, service queue and doorbells (R398, R404 to R422). -/

namespace Sys2Proof.Machine

/-- The requester of Stage Engine e. -/
def seReq (e : Nat) : Req := if e = 0 then .se0 else .se1

/-- STG_STAT.STATE. -/
def StgState.code : StgState → Nat
  | .empty => 0
  | .loading => 1
  | .stopped => 2
  | .run => 3
  | .wait => 4
  | .trap => 5
  | .faulted => 6
  | .haltfault => 7

/-- Sets a sticky bit of STG_STAT[e] and the cause of its vector (R493). -/
def State.stgFlag (s : State) (e b : Nat) : State := (s.orReg (Reg.STG_STAT e) (onebit b)).causeBoth (16 + e)

/-- STG_STAT[e] as read. -/
def State.stgStat (s : State) (e : Nat) : Word :=
  setFld (setFld (s.reg (Reg.STG_STAT e)) 31 29 (s.stg e).st.code) 3 3 (b2n (s.stg e).oos)

/-- The program has stopped, once the Wave Store accesses issued have completed (R411): what R412 and R413 give back, and the
image hash of an EMPTY engine (R592). -/
def State.stgRest (s : State) (e : Nat) (st : StgState) : State :=
  let s := s.settleStage (fun _ => true) e
  let s := iter (fun w t => t.setReg (Reg.STG_SENDBUF e w) 0) 0 6 (s.semFreeAll (seReq e))
  let s := s.setRf (Reg.STG_CTRL e) 7 7 0
  let g := s.stg e
  let s := s.setStg e { g with st := st, tr := none, stall := none, sendBusy := false, blockSeen := false }
  if st = .empty then s.setSeHash e [] else s

/-! ### Running (R408 to R411) -/

/-- The registers at the first bundle (R408). -/
def seEntry (e entry reason : Nat) : Arch :=
  let a : Arch := { pc := entry }
  (a.withG1 [BitVec.ofNat 32 e, BitVec.ofNat 32 reason]).withBase 0 (seBase e + 0xA000)

/-- The program begins at ENTRY, for the reason that G2 gives (R408). -/
def State.stgBegin (s : State) (e reason : Nat) : State :=
  let g := s.stg e
  let t : Task := { tag := 0, level := 0, blk := 0, prog := 0, region := 0, size := 0 }
  s.setStg e { g with
    st := .run, tr := some { task := t, arch := seEntry e g.entry reason }, stall := none, heldArch := none }

/-- START: ignored unless STATE is STOPPED. -/
def State.stgStart (s : State) (e reason : Nat) : State :=
  if (s.stg e).st = .stopped then s.stgBegin e reason else s

/-- A program runs or waits. -/
def StgState.running (st : StgState) : Bool :=
  match st with
  | .run => true
  | .wait => true
  | .trap => true
  | _ => false

/-- STOP (R411). -/
def State.stgStop (s : State) (q : Req) (e : Nat) : State :=
  if (s.stg e).st.running then
    let t := s.stgRest e .stopped
    if q = seReq e then t else t.stgFlag e 2
  else s

/-! ### Loads (R404 to R407) -/

/-- The cause of refusal of a load, 0 when it is taken (R406). -/
def State.stgLoadJudge (s : State) (q : Req) (e : Nat) : Nat :=
  let src := s.reg (Reg.STG_LOAD_SRC e)
  if s.rb (Reg.STG_CTRL e) 7 = true ∧ q ≠ seReq e then 1
  else if bit src 31 = false ∧ s.wsOwner (bankOf (fld src 25 0)) ≠ Req.agent q then 1
  else
    match (s.stg e).st with
    | .empty => 0
    | .stopped => 0
    | .faulted => 0
    | _ => 6

/-- Step 1 of a load: the memory is cleared (R405). The last argument is the start reason of a load that starts its
program by itself. An engine out of service stays EMPTY: it takes no load (R420; DEDUCED: log entry 30). -/
def State.stgLoadStart (s : State) (e : Nat) (src : Word) (q : Req) (after : Option Nat) : State :=
  if (s.stg e).oos then s else
  let s := (s.clearBytes (seBase e) 0x40000).setReg (Reg.STG_LOAD_ST e) 1
  s.setStg e { s.stg e with
    st := .loading, load := some (src, q, after), moved := [], kernel := false, heldArch := none }


/-- A service program image or the code of the failure: 0x03 a bank of it has changed hands during the load, or the first one
is not the agent's (R406, R419); 0x05 no boot image. `n` bytes are read, zero beyond the end of a boot record. -/
def State.stgSource (s : State) (e : Nat) (src : Word) (q : Req) (n : Nat) : Except Nat (List Byte) :=
  if bit src 31 then
    match s.record (8 + e) with
    | some p => .ok (p.take n ++ List.replicate (n - p.length) 0)
    | none => .error 5
  else if (banksOf (fld src 25 0) n).any (fun b => (s.stg e).moved.contains b) then .error 3
  else if s.wsOwner (bankOf (fld src 25 0)) = Req.agent q then .ok (s.copySource (Req.agent q) true (fld src 25 0) n)
  else .error 3

/-- Steps 2 to 4 of a load: the verified image, or the code of the failure (R404, R405, R589, R590). -/
def State.stgVerify (s : State) (e : Nat) (src : Word) (q : Req) : Except Nat (List Byte) :=
  match s.stgSource e src q 0x20 with
  | .error c => .error c
  | .ok h =>
    if leField h 0 2 = 3 ∧ (4096 < leField h 2 2 ∨ 221184 < leField h 8 4) then .error 4
    else if seHeaderOk h = false then .error 1
    else
      match s.stgSource e src q (seSigAt h + 200) with
      | .error c => .error c
      | .ok image =>
        if sigHeaderOk (image.drop (seSigAt h)) = false then .error 1
        else if s.imageOk image (seSigAt h) then .ok image
        else .error 2

/-- A load fails with a code: EMPTY, and an automatic restart gives up (R405, R419). -/
def State.stgLoadFail (s : State) (e code : Nat) (after : Option Nat) : State :=
  let s := (s.clearBytes (seBase e) 0x40000).setReg (Reg.STG_LOAD_ST e) (BitVec.ofNat 32 (code * 2 ^ 24))
  let s := if code = 2 then s.sigRej else s
  let s := (s.setStg e { s.stg e with load := none }).stgRest e .empty
  if after = some 2 then s.stgFlag e 1 else s

/-- The bytes that a load reads from its source: the header, and the rest where the header is valid. -/
def State.stgReads (s : State) (e : Nat) (src : Word) (q : Req) : Nat :=
  match s.stgSource e src q 0x20 with
  | .ok h => if seHeaderOk h then seSigAt h + 200 else 0x20
  | .error _ => 0x20

/-- The word reads of a load from the Wave Store are counted by the banks that serve them (R363). -/
def State.stgCountReads (s : State) (e : Nat) (src : Word) (q : Req) : State :=
  if bit src 31 then s else s.wsCountSpan (Req.agent q) (fld src 25 0) (s.stgReads e src q)

/-- A load ends (R405, R419, R592; step 8 of R617). -/
def State.stgLoadDone (s : State) (e : Nat) : State :=
  match (s.stg e).load with
  | none => s
  | some (src, q, after) =>
    let s := s.stgCountReads e src q
    match s.stgVerify e src q with
    | .error c => s.stgLoadFail e c after
    | .ok image =>
      let len := leField image 2 2
      let s := s.setBytes (seBase e + 0x2000) (slice image 0x20 (8 * len))
      let s := s.setBytes (seBase e + 0xA000) (slice image (0x20 + 8 * len) (leField image 8 4))
      let s := (s.setReg (Reg.STG_LOAD_ST e) 0).setSeHash e (imageDigest image (seSigAt image))
      let s := s.setStg e { s.stg e with
        load := none, lastSrc := some (src, q), len := len, entry := leField image 4 2, trap := leField image 6 2 }
      let s := s.stgRest e .stopped
      match after with
      | none => s
      | some reason => if s.ready then s.stgBegin e reason else s

/-- The boot loads of start-up (R407): an engine without a boot image stays EMPTY. -/
def State.stgBoot (e : Nat) (s : State) : State :=
  if (s.record (8 + e)).isSome then s.stgLoadStart e 0x80000000 (seReq e) (some 0) else s

/-- Step 8 of R617: each engine that a boot load has filled by then starts with G2 = 0. -/
def State.stgBootStart (e : Nat) (s : State) : State := s.stgStart e 0

/-! ### Faults and restart (R418 to R420) -/

/-- The fault is within 65,536 frames of the previous automatic restart. -/
def State.stgConsecutive (s : State) (g : Stage) : Bool :=
  decide (0 < g.restarts) && decide (s.strobes ≤ g.restartAt + 65536)

/-- What R419 makes of a fault: the recovery kernel starts, or the fourth fault in a row ends the restarts. -/
def State.stgAfterFault (s : State) (e : Nat) : State :=
  let g := s.stg e
  if s.rb (Reg.STG_CTRL e) 6 = true ∧ s.rb (Reg.STG_CTRL e) 5 = false then
    let n := if s.stgConsecutive g then g.restarts + 1 else 1
    if 4 ≤ n then (s.setStg e { g with restarts := n }).stgFlag e 1
    else s.setStg e { g with restarts := n, kernel := true, heldArch := none }
  else s

/-- A fault without a handler, or a halt (R418). -/
def State.stgFault (s : State) (e : Nat) (halt : Bool) (tpc tnpc : Nat) (tcause taddr : Word) : State :=
  let w : Word := BitVec.ofNat 32 (fld tcause 7 0 * 2 ^ 24 + b2n halt * 2 ^ 23 + b2n (bit tcause 31) * 2 ^ 22 +
    b2n (bit tcause 30) * 2 ^ 21 + b2n (bit tcause 28) * 2 ^ 20)
  let held := ((s.stg e).tr.map (·.arch))
  let s := ((s.setReg (Reg.STG_FAULT e) w).setReg (Reg.STG_FAULTPC e)
    (BitVec.ofNat 32 (tnpc % 4096 * 65536 + tpc % 4096))).setReg (Reg.STG_FAULTADDR e) taddr
  let s := (s.count (Reg.STG_CNT_FAULT e)).stgFlag e 0
  let s := s.stgRest e (if halt then .haltfault else .faulted)
  let s := if halt then s.setStg e { s.stg e with heldArch := held } else s
  s.stgAfterFault e

/-- The recovery kernel of a faulted engine has passed and the reload begins (R419). -/
def State.stgRestart (s : State) (e : Nat) : State :=
  if (s.stg e).kernel then
    let s := s.setStg e { s.stg e with kernel := false, restartAt := s.strobes }
    match (s.stg e).lastSrc with
    | some (src, q) => s.stgLoadStart e src q (some 2)
    | none => s.stgRest e .empty
  else s

/-- The recovery kernel of a faulted engine ends: it has cleared the spill stack (R245, R400), and one that fails leaves the
engine EMPTY and out of service (R419, R420). -/
def State.seKernelEnd (s : State) (e : Nat) (pass : Bool) : State :=
  if pass then s.stgRestart e
  else if (s.stg e).kernel then
    let t := (s.clearBytes (seBase e) 0xC00).stgRest e .empty
    t.setStg e { t.stg e with kernel := false, oos := true }
  else s

/-- RESUME: a held engine starts the sequence of R419, whatever AUTORST holds (R420). `hold` is HOLD before the write. -/
def State.stgResume (s : State) (e : Nat) (hold : Bool) : State :=
  if (s.stg e).st = .haltfault ∧ hold then
    s.setStg e { s.stg e with kernel := true, heldArch := none }
  else s

/-- An accepted write to STG_CTRL[e]: STOP, LOAD, START and RESUME act in that order on the state before the write. -/
def State.stgCtrl (s : State) (q : Req) (e : Nat) (w : Word) : State :=
  let lock := if q = seReq e then fld w 7 7 else s.rf (Reg.STG_CTRL e) 7 7
  let st := (s.stg e).st
  let hold := s.rb (Reg.STG_CTRL e) 5
  let s := s.setReg (Reg.STG_CTRL e) (setFld (w &&& 0x60) 7 7 lock)
  let s := if bit w 2 then s.stgStop q e else s
  let s := if bit w 3 then s.stgLoadStart e (s.reg (Reg.STG_LOAD_SRC e)) q none else s
  let s := if bit w 1 ∧ st = .stopped then s.stgStart e 1 else s
  if bit w 4 then s.stgResume e hold else s

/-- The cause of refusal of a write to STG_CTRL[e], 0 when it is accepted (R403, R406, R411, R412). -/
def State.stgCtrlCauses (s : State) (q : Req) (e : Nat) (w : Word) : List Nat :=
  let mine := decide (q = seReq e)
  let lock := s.rb (Reg.STG_CTRL e) 7
  (if bit w 5 ≠ s.rb (Reg.STG_CTRL e) 5 ∧ s.lockOpen (Req.ix q) = false then [4] else []) ++
  (if bit w 7 ∧ !mine then [1] else []) ++
  (if bit w 2 ∧ lock ∧ !mine then [1] else []) ++
  (if bit w 3 ∧ s.stgLoadJudge q e ≠ 0 then [s.stgLoadJudge q e] else [])

/-! ### Waiting (R409) -/

/-- The wake causes pending for engine e, as STG_WAKE numbers them. -/
def State.stgCauses (s : State) (e : Nat) : Nat :=
  let g := s.stg e
  b2n (!g.svcq.isEmpty) +
  2 * b2n (decide (s.reg (Reg.STG_DOORBELL e) ≠ 0)) +
  4 * b2n ((List.range 16).any fun t => decide (s.rf (Reg.TMR_CFG t) 31 29 = 3 + e) && s.tmrExp t) +
  8 * b2n ((List.range 4).any fun u => decide (s.rf (Reg.UART_CFG u) 28 26 = 1 + e) && !(s.uart u).rxq.isEmpty) +
  16 * b2n g.blockSeen +
  32 * b2n (g.sendBusy && decide (s.heap.length < 16384))

/-- A cause that STG_WAKE[e] enables is pending. -/
def State.stgWakeDue (s : State) (e : Nat) : Bool :=
  (List.range 6).any fun b => s.rb (Reg.STG_WAKE e) b && decide (s.stgCauses e / 2 ^ b % 2 = 1)

/-- A waiting engine resumes at the bundle that would have issued next. -/
def State.stgWake (s : State) (e : Nat) : State :=
  let g := s.stg e
  if g.st = .wait ∧ s.stgWakeDue e then
    s.setStg e { g with st := if (g.tr.map (·.arch.tm)).getD false then .trap else .run, blockSeen := false }
  else s

/-- A strobe that opens a block is seen by a waiting engine. -/
def State.stgBlock (e : Nat) (s : State) : State :=
  let g := s.stg e
  if g.st = .wait then s.setStg e { g with blockSeen := true } else s

/-! ### Sends, the service queue and doorbells (R414 to R417, R421) -/

/-- Words of STG_SENDBUF[e]. -/
def State.sendWord (s : State) (e w : Nat) : Word := s.reg (Reg.STG_SENDBUF e w)

/-- A write to STG_SENDGO[e] (R414, R415). -/
def State.stgSend (s : State) (e : Nat) (ump : Bool) : State :=
  if s.evtRoom (10 + e) 1 then
    let s := (s.setReg (Reg.STG_SENDST e) 0).setStg e { s.stg e with sendBusy := false }
    if ump then
      s.takeUmp (10 + e) (s.sendWord e 1 ++ s.sendWord e 0).toNat (s.sendWord e 2) (s.sendWord e 3)
    else
      s.takeNative (10 + e) (s.sendWord e 3 ++ s.sendWord e 2 ++ s.sendWord e 1 ++ s.sendWord e 0)
  else (s.setReg (Reg.STG_SENDST e) 1).setStg e { s.stg e with sendBusy := true }

/-- A write of 1 to STG_SVC_POP[e] (R417). -/
def State.stgPop (s : State) (e : Nat) : State := s.setStg e { s.stg e with svcq := (s.stg e).svcq.drop 1 }

/-- Word w of the oldest service-queue entry (R417). -/
def svcWord (entry : Nat × Nat × Item) (w : Nat) : Word :=
  let src := entry.2.1
  match w, entry.2.2 with
  | 0, _ => BitVec.ofNat 32 entry.1
  | 1, _ => BitVec.ofNat 32 (entry.1 / 2 ^ 32)
  | 2, .native .. => BitVec.ofNat 32 (0x10000000 + src * 2 ^ 24)
  | 2, .ump mt g _ _ => BitVec.ofNat 32 ((if mt = 3 then 0x30000000 else 0x20000000) + src * 2 ^ 24 + g.toNat * 2 ^ 20)
  | 2, .midi b => BitVec.ofNat 32 (0x40000000 + src * 2 ^ 24 + b.toNat)
  | 3, .native _ _ _ v => v
  | 3, .ump _ _ w0 _ => w0
  | 4, .native ty p h _ => BitVec.ofNat 32 (p.toNat * 2 ^ 22 + ty.toNat * 2 ^ 16 + h.toNat)
  | 4, .ump mt _ _ w1 => if mt = 3 then w1 else 0
  | _, _ => 0

/-- STG_SVC_HEAD[e][w]. -/
def State.svcHead (s : State) (e w : Nat) : Word :=
  match (s.stg e).svcq with
  | [] => 0
  | x :: _ => svcWord x w

/-- The doorbell bit of a requester at engine e, none for the engine itself (R421). -/
def doorbellBit (q : Req) (e : Nat) : Option Nat :=
  if q = seReq e then none
  else match q with
    | .hpa => some 0
    | .hpb => some 1
    | _ => some 2

/-- The causes that refuse a write to STG_DOORBELL[e] (R421). -/
def doorbellCauses (q : Req) (e : Nat) (w : Word) : List Nat :=
  match doorbellBit q e with
  | none => []
  | some b => if fld w 2 0 = 0 ∨ fld w 2 0 = 2 ^ b then [] else [1]

/-- A write to STG_DOORBELL[e]: a requester rings, or the engine clears (R421). -/
def State.stgRing (s : State) (q : Req) (e : Nat) (w : Word) : State :=
  match doorbellBit q e with
  | none => s.setReg (Reg.STG_DOORBELL e) (s.reg (Reg.STG_DOORBELL e) &&& ~~~ w)
  | some _ => s.orReg (Reg.STG_DOORBELL e) (w &&& 7)

end Sys2Proof.Machine
end

