-- ==== Sys2Proof/Machine/Uart.lean ====
section
/-! DEFINITION. The serial ports: characters, queues, frame mode and autobaud (R539 to R566). -/

namespace Sys2Proof

/-! ### Centre samples -/

/-- The value of three centre samples: their majority (R544). -/
def majority (a b c : Bool) : Bool := (a && b) || (a && c) || (b && c)

/-- The value of bit k of a character, the start bit being bit 0 (R544). -/
def RxChar.value (ch : RxChar) (k : Nat) : Bool := majority (ch.s7.getLsbD k) (ch.s8.getLsbD k) (ch.s9.getLsbD k)

/-- The three centre samples of bit k disagree (R545). -/
def RxChar.unsure (ch : RxChar) (k : Nat) : Bool :=
  !(ch.s7.getLsbD k == ch.s8.getLsbD k && ch.s8.getLsbD k == ch.s9.getLsbD k)

/-- The start bit is accepted: at least two of its centre samples are low (R543). -/
def RxChar.startLow (ch : RxChar) : Bool := !ch.value 0

/-- The n data bits after the start bit, least significant first (R541). -/
def RxChar.data (ch : RxChar) (n : Nat) : Nat := (List.range n).foldl (fun t i => t + 2 ^ i * (ch.value (1 + i)).toNat) 0

/-- The bits of a byte sent in frame mode as read back: start, data, stop. A mismatch of any (R554; DEDUCED: of the value
that R544 gives the bit, log entry 47). -/
def RxChar.echoes (ch : RxChar) (b : Byte) : Bool := ch.startLow && decide (ch.data 8 = b.toNat) && ch.value 9

/-- The break and the delimiter of a header as read back: `low` low bit times, then `high` high ones (R554). -/
def HeaderEcho.breakOk (e : HeaderEcho) (low high : Nat) : Bool :=
  (List.range (low + high)).all fun k =>
    majority (e.s7.getLsbD k) (e.s8.getLsbD k) (e.s9.getLsbD k) == decide (low ≤ k)

end Sys2Proof

namespace Sys2Proof.Machine

/-! ### Settings -/

/-- EN of UART u. -/
def State.uartOn (s : State) (u : Nat) : Bool := s.rb (Reg.UART_CFG u) 31
/-- MODE of UART u: 0 character, 1 frame commander, 2 frame responder. -/
def State.uartMode (s : State) (u : Nat) : Nat := s.rf (Reg.UART_CFG u) 30 29
/-- DEST of UART u: 0 EVT, 1 SE0, 2 SE1, 3 host A, 4 host B. -/
def State.uartDest (s : State) (u : Nat) : Nat := s.rf (Reg.UART_CFG u) 28 26
/-- Data bits of UART u. -/
def State.uartBits (s : State) (u : Nat) : Nat := s.rf (Reg.UART_CFG u) 23 20

/-- The requester that a DEST value names, if any (R548). -/
def destReq (d : Nat) : Option Req :=
  match d with
  | 1 => some .se0
  | 2 => some .se1
  | 3 => some .hpa
  | 4 => some .hpb
  | _ => none

/-- DEST's agent; for EVT it is SE (R565). -/
def destAgent (d : Nat) : Nat :=
  match d with
  | 3 => 1
  | 4 => 2
  | _ => 3

/-- A cause enabled in UART_IEN occurs: vector 19 of the host that DEST names (R564). -/
def State.uartCause (s : State) (u b : Nat) : State :=
  if s.rb (Reg.UART_IEN u) b then
    match s.uartDest u with
    | 3 => s.cause 0 19
    | 4 => s.cause 1 19
    | _ => s
  else s

/-- Sets a sticky bit of UART_STAT. -/
def State.uartFlag (s : State) (u b : Nat) : State := s.orReg (Reg.UART_STAT u) (onebit b)

/-! ### The receive queue (R545 to R550) -/

/-- Ones among the low n bits. -/
def onesIn (x n : Nat) : Nat := sumOf (fun i => x / 2 ^ i % 2) (List.range n)

/-- Where the first stop bit of UART u stands in a character (R541). -/
def State.stopAt (s : State) (u : Nat) : Nat := 1 + s.uartBits u + b2n (decide (s.rf (Reg.UART_CFG u) 19 18 ≠ 0))

/-- The receive-queue entry of a character, without its frame bits (R544, R545, R547). -/
def State.charEntry (s : State) (u : Nat) (ch : RxChar) : Word :=
  let par := s.rf (Reg.UART_CFG u) 19 18
  let n := s.uartBits u
  let d := ch.data n
  let parBit := decide (par ≠ 0) && ch.value (1 + n)
  let stopHigh := ch.value (s.stopAt u)
  let ones := onesIn d 9 + b2n parBit
  let brk := decide (d = 0) && !parBit && !stopHigh && ch.startLow
  let parErr := match par with
    | 1 => decide (ones % 2 = 1)
    | 2 => decide (ones % 2 = 0)
    | _ => false
  let w : Word := BitVec.ofNat 32 d ||| onebit 31
  let w := if (List.range (s.stopAt u + 1)).any ch.unsure then w ||| onebit 16 else w
  if brk then w ||| onebit 19
  else
    let w := if parErr then w ||| onebit 17 else w
    if stopHigh then w else w ||| onebit 18

/-- The entry carries NOISE, PAR, FRM or BRK. -/
def entryBad (w : Word) : Bool := decide (fld w 19 16 ≠ 0)

/-- Stores an entry; into a full queue it replaces the newest, with OVR set (R549). -/
def State.uartStore (s : State) (u : Nat) (w : Word) : State :=
  let x := s.uart u
  let s := if entryBad w then
    ((s.count (Reg.UART_CNT u 1)).uartFlag u 1).uartCause u 1 else s
  if x.rxq.length < 16 then
    let t := s.setUart u { x with rxq := x.rxq ++ [w] }
    if x.rxq.isEmpty then t.uartCause u 0 else t
  else
    ((s.setUart u { x with rxq := x.rxq.take 15 ++ [w ||| onebit 20] }).count (Reg.UART_CNT u 2)).uartFlag u 0

/-- A read of UART_RXD: the requester that DEST names takes the oldest entry (R548). -/
def State.uartRead (s : State) (q : Req) (u : Nat) : Word × State :=
  let x := s.uart u
  if destReq (s.uartDest u) = some q then
    match x.rxq with
    | [] => (0, s)
    | w :: l => (w, s.setUart u { x with rxq := l })
  else (0, s)

/-! ### Transmitting (R541, R551, R552) -/

/-- What UAn_TXD sends for a character (R541): a low start bit, the data bits, the parity bit (par 1 even, 2 odd), and high
stop bits of 16, 24 or 32 sample ticks. -/
def charLine (bits par stop c : Nat) : List (Bool × Nat) :=
  let odd := decide (onesIn c bits % 2 = 1)
  (false, 16) :: (List.range bits).map (fun i => (Nat.testBit c i, 16)) ++
    (match par with
     | 1 => [(odd, 16)]
     | 2 => [(!odd, 16)]
     | _ => []) ++ [(true, 16 + 8 * stop)]

/-- The character as UART u is set. -/
def State.uartLine (s : State) (u c : Nat) : List (Bool × Nat) :=
  charLine (s.uartBits u) (s.rf (Reg.UART_CFG u) 19 18) (s.rf (Reg.UART_CFG u) 17 16) c

/-- A byte of a frame: 8 data bits, no parity, 1 stop bit (R540). -/
def byteLine (b : Byte) : List (Bool × Nat) := charLine 8 0 0 b.toNat

/-- A commander's header on the line (R554): break, delimiter, 0x55, PID. -/
def State.headerLine (s : State) (u : Nat) (pid : Byte) : List (Bool × Nat) :=
  [(false, 16 * (13 + s.rf (Reg.UART_CFG u) 13 11)), (true, 16 * (1 + s.rf (Reg.UART_CFG u) 10 10))] ++
    byteLine 0x55 ++ byteLine pid

/-- A frame is being sent: its header, or its published response. -/
def LinFrame.onLine (f : LinFrame) : Bool :=
  match f.stage with
  | .header => !f.spent
  | .publish => !f.spent
  | .dropped => true
  | _ => false

/-- The transmitter sends (UART_STAT.TXBUSY). The bit time between a PID and its published response counts as sending
(DEDUCED: log entry 47). -/
def Uart.sends (x : Uart) : Bool := x.cur.isSome || (x.frame.map LinFrame.onLine).getD false

/-- The transmitter starts the oldest queued character when it is idle. -/
def State.uartStart (s : State) (u : Nat) : State :=
  let x := s.uart u
  if s.uartOn u && !x.sends then
    match x.txq with
    | [] => s
    | c :: l => s.setUart u { x with cur := some c, txq := l, txd := s.uartLine u c.toNat }
  else s

/-- A character to send (R551). One that a transaction brings to a full queue, or to a UART in frame mode, is lost: a
direct write would have been refused (DESIGN CHOICE, log entry 25). -/
def State.uartSend (s : State) (u : Nat) (v : Word) : State :=
  let x := s.uart u
  if s.uartMode u ≠ 0 ∨ 16 ≤ x.txq.length then s
  else
    let c := BitVec.ofNat 9 (v.toNat % 2 ^ s.uartBits u)
    (s.setUart u { x with txq := x.txq ++ [c] }).uartStart u

/-- The transmitter has gone idle with nothing queued: a cause of UART_IEN (R564). -/
def State.uartIdle (s : State) (u : Nat) : State :=
  if (s.uart u).sends || !(s.uart u).txq.isEmpty then s else s.uartCause u 3

/-- What UAn_TXD sends of a frame: its header, or the next byte of its published response (R554, R555). -/
def State.frameLine (s : State) (u : Nat) (f : LinFrame) : List (Bool × Nat) :=
  if !f.onLine then []
  else if f.stage = .header then s.headerLine u f.pid
  else byteLine (f.toSend.headD 0)

/-- The frame in progress is f, and what it sends is on the line, once a character that R552 still lets complete is over. -/
def State.putFrame (s : State) (u : Nat) (f : LinFrame) : State :=
  let x := s.uart u
  s.setUart u { x with frame := some f, txd := if x.cur.isSome then x.txd else s.frameLine u f }

/-- The last stop bit of the character in progress ends (R551, R564), or that of the last byte of a frame given up (R552). A
header that waits for it begins. -/
def State.uartTxEnd (s : State) (u : Nat) : State :=
  let x := s.uart u
  if x.cur.isSome then
    let line := (x.frame.map (s.frameLine u)).getD []
    ((s.setUart u { x with cur := none, txd := line }).uartStart u).uartIdle u
  else if (x.frame.map fun f => decide (f.stage = .dropped)).getD false then
    ((s.setUart u { x with frame := none, txd := [] }).uartStart u).uartIdle u
  else s

/-- EN goes to 1: settings apply, and autobaud is armed where ABEN asks for it (R552, R563). A byte that R552 still lets
complete goes on. -/
def State.uartEnabled (s : State) (u : Nat) : State :=
  let x := s.uart u
  (s.setUart u { x with abWait := decide (s.uartMode u = 0) && s.rb (Reg.UART_CFG u) 15 }).uartStart u

/-- The byte of a frame that is on the line, by a free value where the commands do not tell: a header is in its break or
delimiter, which are no byte, in its 0x55 or in its PID, and a published response may still be in the gap before its first
byte (log entry 47). -/
def LinFrame.inProgress (f : LinFrame) (free : BitVec 2) : Option Byte :=
  match f.stage with
  | .header => if f.spent then none else if free.toNat < 2 then none else some (if free.getLsbD 0 then f.pid else 0x55)
  | .publish => if f.spent ∨ (f.bytes.isEmpty ∧ free.getLsbD 0 = true) then none else f.toSend.head?
  | _ => none

/-- EN goes to 0 (R552): the receiver stops, the queues are emptied, and the character or frame byte in progress completes.
A frame being sent is given up after that byte, any other at once, and so is one that waits for a character in progress;
either way no entry is stored for it. -/
def State.uartDisabled (s : State) (u : Nat) : State :=
  let x := s.uart u
  let stopped : Uart := { x with rxq := [], txq := [], abWait := false }
  match x.frame with
  | none => s.setUart u stopped
  | some f =>
    if f.stage = .dropped then s.setUart u stopped
    else if f.onLine && x.cur.isNone then
      let r := s.free 2
      match f.inProgress r.1 with
      | some b => r.2.setUart u { stopped with frame := some { f with stage := .dropped }, txd := byteLine b }
      | none => (r.2.setUart u { stopped with frame := none, txd := [] }).uartIdle u
    else s.setUart u { stopped with frame := none }

/-! ### Autobaud (R561 to R563) -/

/-- The divider that a measured 0x55 character gives, none when the measurement fails. -/
def syncDivider (m : SyncEdges) : Option Nat :=
  let t := m.i1 + m.i2 + m.i3 + m.i4
  let near (i : Nat) : Bool := decide (64 * i ≤ 17 * t) && decide (15 * t ≤ 64 * i)
  let d := (t + 4) / 8
  if near m.i1 && near m.i2 && near m.i3 && near m.i4 && decide (64 ≤ d) && decide (d ≤ 1048575) then some d else none

/-- An armed UART measures a character. -/
def State.autobaud (s : State) (u : Nat) (m : SyncEdges) : State :=
  let x := s.uart u
  if s.uartOn u && x.abWait then
    match syncDivider m with
    | some d =>
      (((s.setUart u { x with abWait := false }).setReg (Reg.UART_DIV u) (BitVec.ofNat 32 d)).uartFlag u 3).uartCause u 4
    | none => s.uartFlag u 4
  else s

/-- Autobaud is armed by ABARM (R563). -/
def State.uartArm (s : State) (u : Nat) : State :=
  let x := s.uart u
  if decide (s.uartMode u = 0) && s.rb (Reg.UART_CFG u) 15 then s.setUart u { x with abWait := true } else s

/-! ### Frame mode (R553 to R560) -/

/-- The protected identifier of an ID (R553). -/
def pidOf (id : BitVec 6) : Byte :=
  let b (n : Nat) : Bool := id.getLsbD n
  let p0 := Bool.xor (Bool.xor (b 0) (b 1)) (Bool.xor (b 2) (b 4))
  let p1 := !(Bool.xor (Bool.xor (b 1) (b 3)) (Bool.xor (b 4) (b 5)))
  BitVec.ofNat 8 (id.toNat + 64 * b2n p0 + 128 * b2n p1)

/-- The LIN checksum (R556). -/
def linChecksum (enhanced : Bool) (pid : Byte) (bytes : List Byte) : Byte :=
  let sum := bytes.foldl (fun t b => let t := t + b.toNat; if 255 < t then t - 255 else t)
    (if enhanced then pid.toNat else 0)
  BitVec.ofNat 8 (255 - sum)

/-- The frame's status takes the first condition that occurs (R560). -/
def LinFrame.note (f : LinFrame) (code : Nat) : LinFrame := if f.status = 0 then { f with status := code } else f

/-- A byte flagged FRM, NOISE or BRK sets FRAMING. -/
def LinFrame.noteByte (f : LinFrame) (w : Word) : LinFrame :=
  if bit w 16 || bit w 18 || bit w 19 then f.note 5 else f

/-- The frame in progress is stored back. -/
def State.setFrame (s : State) (u : Nat) (f : Option LinFrame) : State := s.setUart u { s.uart u with frame := f }

/-- Stores the END entry of a frame, and FBUSY falls (R559, R560). -/
def State.linEnd (s : State) (u : Nat) (f : LinFrame) : State :=
  let s := (s.setFrame u none).uartStore u (setFld (onebit 31 ||| onebit 22) 7 0 f.status)
  let s := (s.uartFlag u 5).uartCause u 2
  if f.status = 0 then s else ((s.count (Reg.UART_CNT u 3)).uartFlag u 1).uartCause u 1

/-- UART_FTXD's publish bytes. -/
def State.ftxBytes (s : State) (u n : Nat) : List Byte :=
  (toLE (s.reg (Reg.UART_FTXD u 0)).toNat 4 ++ toLE (s.reg (Reg.UART_FTXD u 1)).toNat 4).take n

/-- The 64 words of UART_FID, taken as a header begins (R565). -/
def State.takeFids (s : State) (u : Nat) : List Word := (List.range 64).map fun id => s.reg (Reg.UART_FID u id)

/-- What follows the PID: the response is published, subscribed or skipped (R555, R556), by UART_FID as the header began
(R565). -/
def State.linRespond (s : State) (u : Nat) (f : LinFrame) : LinFrame :=
  let id := f.pid.toNat % 64
  let w := f.fids.getD id 0
  let n := fld w 2 0 + 1
  let enh := bit w 29 && decide (id < 60)
  let f := { f with len := n, enhanced := enh }
  match fld w 31 30 with
  | 1 =>
    let d := s.ftxBytes u n
    { f with stage := .publish, toSend := d ++ [linChecksum enh f.pid d] }
  | 2 => { f with stage := .subscribe }
  | _ => { f with spent := true }

/-- A commander's header starts (R554). -/
def State.linGo (s : State) (u : Nat) (id : Nat) : State :=
  let pid := pidOf (BitVec.ofNat 6 id)
  s.putFrame u { stage := .header, pid := pid, fids := s.takeFids u }

/-- The frame goes on with f: the byte it sends next is on the line, and a transmitter that has nothing left goes idle. -/
def State.linGoesOn (s : State) (u : Nat) (f : LinFrame) : State :=
  (s.putFrame u f).uartIdle u

/-- The commander's header has ended, read back (R554, R555, R559); none has while a character goes first. A mismatch of the
break, the delimiter or the 0x55 stops it there, before its PID is sent: no HDR entry is stored (DEDUCED, log entry 47). -/
def State.linHeaderSent (s : State) (u : Nat) (e : HeaderEcho) : State :=
  match (s.uart u).frame with
  | some f =>
    if f.stage = .dropped then s.uartTxEnd u
    else if f.stage = .header ∧ f.spent = false ∧ (s.uart u).cur.isNone = true then
      let low := 13 + s.rf (Reg.UART_CFG u) 13 11
      if e.breakOk low (1 + s.rf (Reg.UART_CFG u) 10 10) && e.sync.echoes 0x55 then
        let w := s.charEntry u e.pid ||| onebit 21
        let t := s.uartStore u w
        if e.pid.echoes f.pid then t.linGoesOn u (t.linRespond u (f.noteByte w))
        else t.linGoesOn u { (f.note 4).noteByte w with spent := true }
      else s.linGoesOn u { f.note 4 with spent := true }
    else s
  | none => s

/-- A responder detects a break (R558); a response that it cuts off leaves the transmitter idle (R564). -/
def State.linBreak (s : State) (u : Nat) : State :=
  if s.uartOn u && decide (s.uartMode u = 2) then
    let sent := (s.uart u).sends
    let s := match (s.uart u).frame with
      | some f => if f.stage = LinStage.dropped then s else s.linEnd u (if f.spent then f else f.note 8)
      | none => s
    let t := s.putFrame u { stage := .sync, fids := s.takeFids u }
    if sent then t.uartIdle u else t
  else s

/-- A responder measures the sync (R558, R561). -/
def State.linSync (s : State) (u : Nat) (m : SyncEdges) : State :=
  match (s.uart u).frame with
  | some f =>
    if f.stage = .sync ∧ f.spent = false then
      match syncDivider m with
      | some d => (s.setReg (Reg.UART_DIV u) (BitVec.ofNat 32 d)).setFrame u (some { f with stage := .pid })
      | none => s.setFrame u (some { f.note 7 with spent := true })
    else s
  | none => s

/-- A start bit was rejected (R543). -/
def State.uartGlitch (s : State) (u : Nat) : State := (s.count (Reg.UART_CNT u 0)).uartFlag u 2

/-- A responder receives the PID (R555, R559, R560). -/
def State.linPid (s : State) (u : Nat) (ch : RxChar) : State :=
  match (s.uart u).frame with
  | some f =>
    if f.stage = .pid ∧ f.spent = false then
      if ch.startLow = false then s.uartGlitch u
      else
        let e := s.charEntry u ch ||| onebit 21
        let pid : Byte := BitVec.ofNat 8 (fld e 7 0)
        let f := { f with pid := pid }.noteByte e
        if pid = pidOf (BitVec.ofNat 6 (pid.toNat % 64)) then
          let g := s.linRespond u f
          if g.spent then s.setFrame u none
          else (s.uartStore u e).putFrame u g
        else (s.uartStore u e).setFrame u (some { f.note 6 with spent := true })
    else s
  | none => s

/-- A response byte sent and read back, or received (R554, R555, R559, R560). -/
def State.linByte (s : State) (u : Nat) (f : LinFrame) (ch : RxChar) : State :=
  let e := s.charEntry u ch
  let b : Byte := BitVec.ofNat 8 (fld e 7 0)
  match f.stage with
  | .publish =>
    let rest := f.toSend.drop 1
    let g := if ch.echoes (f.toSend.headD 0) then { f with toSend := rest, spent := rest.isEmpty }
      else { f.note 4 with toSend := [], spent := true }
    (s.uartStore u e).linGoesOn u ({ g with bytes := f.bytes ++ [b] }.noteByte e)
  | .subscribe =>
    let g := { f with bytes := f.bytes ++ [b] }.noteByte e
    let done := decide (g.bytes.length = g.len + 1)
    let wrong := decide (b ≠ linChecksum g.enhanced g.pid (g.bytes.take g.len))
    let g := if done && wrong then g.note 1 else g
    (s.uartStore u e).setFrame u (some { g with spent := done })
  | _ => s

/-- The response time limit expires (R557, R560): `start` is the start bit, by its three centre samples, of a character
that is not complete. -/
def State.linTimeout (s : State) (u : Nat) (start : Option (BitVec 3)) : State :=
  match (s.uart u).frame with
  | some f =>
    if f.stage = .subscribe ∧ f.spent = false then
      let begun := match start with
        | some x => !majority (x.getLsbD 0) (x.getLsbD 1) (x.getLsbD 2)
        | none => false
      s.setFrame u (some { f.note (if f.bytes.isEmpty && !begun then 2 else 3) with spent := true })
    else s
  | none => s

/-- The frame ends and its END entry is stored (R559). -/
def State.linFrameEnd (s : State) (u : Nat) : State :=
  match (s.uart u).frame with
  | some f => if f.spent then s.linEnd u f else s
  | none => s

/-- A character arrives (R543 to R546, R554 to R559, R563). -/
def State.uartReceive (s : State) (u : Nat) (ch : RxChar) : State :=
  let x := s.uart u
  if s.uartOn u = false ∨ x.abWait = true then s
  else if s.uartMode u = 0 then
    if ch.startLow then s.uartStore u (s.charEntry u ch) else s.uartGlitch u
  else
    match x.frame with
    | some f =>
      if f.spent ∨ (f.stage ≠ .publish ∧ f.stage ≠ .subscribe) then s
      else if ch.startLow || decide (f.stage = .publish) then s.linByte u f ch
      else s.uartGlitch u
    | none => s

/-! ### Register words -/

/-- UART_STAT as read. -/
def State.uartStat (s : State) (u : Nat) : Word :=
  let x := s.uart u
  let w := setFld (s.reg (Reg.UART_STAT u)) 31 31 (b2n x.sends)
  let w := setFld (setFld w 30 26 x.txq.length) 25 21 x.rxq.length
  setFld (setFld w 20 20 (b2n x.abWait)) 6 6 (b2n x.frame.isSome)

/-- A write to UART_CFG: EN going to 1 or to 0 acts (R552). -/
def State.uartCfgWrite (s : State) (u : Nat) (w : Word) : State :=
  let was := s.uartOn u
  let t := s.setReg (Reg.UART_CFG u) w
  if was = bit w 31 then t
  else if bit w 31 then t.uartEnabled u
  else t.uartDisabled u

/-- The transmit queue is emptied; where the transmitter is idle that is a cause of UART_IEN (R564). -/
def State.uartFlush (s : State) (u : Nat) : State :=
  let x := s.uart u
  if x.txq.isEmpty then s else (s.setUart u { x with txq := [] }).uartIdle u

/-- A write to UART_CTRL (R563 and the register's table). -/
def State.uartCtrlWrite (s : State) (u : Nat) (w : Word) : State :=
  let s := if bit w 0 then s.setUart u { s.uart u with rxq := [] } else s
  let s := if bit w 1 then s.uartFlush u else s
  if bit w 2 then s.uartArm u else s

/-- A write to UART_FHDR (R554). A GO that a transaction brings where a direct write of it is refused sends no header
(DESIGN CHOICE, log entry 25). -/
def State.uartFhdrWrite (s : State) (u : Nat) (w : Word) : State :=
  if bit w 31 && s.uartOn u && decide (s.uartMode u = 1) && (s.uart u).frame.isNone then s.linGo u (fld w 5 0) else s

/-- The combinations of R540. -/
def uartCfgBad (u : Nat) (w : Word) : Bool :=
  let dest := fld w 28 26
  let mode := fld w 30 29
  let bits := fld w 23 20
  (decide (dest = 0) && (decide (2 ≤ u) || decide (mode ≠ 0) || decide (bits ≠ 8))) ||
  (decide (mode ≠ 0) && (decide (bits ≠ 8) || decide (fld w 19 18 ≠ 0) || decide (fld w 17 16 ≠ 0))) ||
  (bit w 15 && decide (bits ≠ 8))

end Sys2Proof.Machine
end

