-- ==== Sys2Proof/Machine/Pwr.lean ====
section
/-! DEFINITION. Power: consent, SLEEP, OFF, and the supply-sag level (R608 to R615, R618, R621 to R627). -/

namespace Sys2Proof.Machine

/-! ### Consent (R610 to R612) -/

/-- HPx_LINK.LSTATE. -/
def LinkState.code : LinkState → Nat
  | .down => 0
  | .l0 => 1
  | .l1 => 2
  | .l11 => 3
  | .l12 => 4
  | .recovery => 5
  | .reset => 6

/-- The link is up: L0, L1 and its substates, or recovery. -/
def LinkState.up (l : LinkState) : Bool := decide (1 ≤ l.code) && decide (l.code ≤ 5)

/-- Requester i is a voter (R610). -/
def State.voter (s : State) (i : Nat) : Bool :=
  if i < 2 then (s.port i).link.up
  else (s.stg (i - 2)).st.running

/-- Consent holds: `lo` is 0 for SLEEP and 4 for OFF. -/
def State.consent (s : State) (lo : Nat) : Bool :=
  decide (s.rf Reg.PWR_REQ (lo + 3) lo ≠ 0) &&
    (List.range 4).all fun i => !s.voter i || s.rb Reg.PWR_REQ (lo + i)

/-- The first list of R612: the engine is idle. -/
def State.engineIdle (s : State) : Bool :=
  !s.rb Reg.EVT_CTRL 0 && !s.rb Reg.VAL_CTRL 0 && !s.rb Reg.MOD_CTRL 0 && !s.rb Reg.PUP_CTRL 0 && !s.rb Reg.DAC_CTRL 0 &&
  ((List.range 2).all fun e => match (s.stg e).st with
    | .run => false
    | .trap => false
    | .loading => false
    | _ => true) &&
  ((List.range 4).all fun i => match (s.txn i).st with
    | .checking => false
    | .pending => false
    | _ => true) &&
  s.sec.sealJob.isNone && s.sec.quotes.isEmpty && s.sec.fuseOp.isNone &&
  (match s.nvm.op with
   | some o => decide (o.op ≠ 3)
   | none => true)

/-- PWR_STAT.STATE. -/
def State.pwrState (s : State) : Nat :=
  match s.phase with
  | .sleep => 2
  | .commit => 4
  | .run => if s.consent 4 then 3 else if s.consent 0 then 1 else 0
  | _ => 0

/-- PGOOD is high: the device runs its start-up after step 2, or is past it. -/
def State.pgood (s : State) : Bool :=
  match s.phase with
  | .off => false
  | .waitPgood => false
  | _ => true

/-- PWR_STAT as read; WAKE, LASTOFF, LEVEL and PEAK are stored. -/
def State.pwrStat (s : State) : Word :=
  let w := setFld (s.reg Reg.PWR_STAT) 31 29 s.pwrState
  let w := setFld w 18 18 (b2n s.pgood)
  let w := setFld w 7 4 (sumOf (fun i => b2n (s.voter i) * 2 ^ i) (List.range 4))
  setFld w 0 0 (b2n s.ready)

/-- Bits of PWR_REQSET and PWR_REQCLR that are not the writer's own (R611). -/
def foreignBits (q : Req) (w : Word) : Bool := decide (w &&& ~~~ BitVec.ofNat 32 (17 * 2 ^ Req.ix q) ≠ 0)

/-! ### The output pins (R662) -/

/-- The outputs that R662 tells apart: PSU_EN, XTAL_OUT, AVS_CLK and AVS_MDATA, and every other one of the VIO33 and VIO18
classes. -/
inductive OutPin where
  | psuEn
  | xtalOut
  | avs
  | other
deriving DecidableEq, Repr

/-- What an output does: its level, high-impedance, unpowered, running with its unit, or the level that its registers
define. -/
inductive Drive where
  | low
  | high
  | highZ
  | unpowered
  | runs
  | registers
deriving DecidableEq, Repr

/-- What each output does in the present phase (R662): what `State` holds for an output, such as the line of a UART or the
S/PDIF subframes, stands at its pin where this answers `registers`. -/
def State.drive (s : State) (p : OutPin) : Drive :=
  match s.phase, p with
  | .off, .psuEn => .low
  | .off, _ => .unpowered
  | _, .psuEn => if s.psuEn then .high else .low
  | .waitPgood, _ => .highZ
  | _, .xtalOut => .runs
  | .waitCrystal, _ => .highZ
  | _, .avs => .runs
  | .waitRecords, .other => .highZ
  | _, .other => .registers

/-! ### SLEEP and OFF (R608, R613 to R615) -/

/-- SLEEP ends: the SLEEP bits of every requester clear (R614). -/
def State.sleepEnd (s : State) : State :=
  if s.phase = .sleep then ({ s with phase := .run } : State).setRf Reg.PWR_REQ 3 0 0 else s

/-- A write to PWR_REQCLR: a voter's own SLEEP bit also ends SLEEP (R614). -/
def State.pwrReqclr (s : State) (q : Req) (w : Word) : State :=
  let voter := s.voter (Req.ix q)
  let s := s.setReg Reg.PWR_REQ (s.reg Reg.PWR_REQ &&& ~~~ w)
  if voter && bit w (Req.ix q) then s.sleepEnd else s

/-- A write to PWR_REQSET. -/
def State.pwrReqset (s : State) (w : Word) : State := s.orReg Reg.PWR_REQ w

/-- The commit before OFF starts, with the cause that LASTOFF takes (R615, R626, R638, R641). A COMMIT that a
requester asked for ends first. -/
def State.offCommit (s : State) (lastoff : Nat) : State :=
  let s := ({ s with phase := .commit } : State).nvmStop
  match s.nvm.op with
  | some o => if o.thenOff then s.nvmCommitOp none lastoff true else s
  | none => s.nvmCommitOp none lastoff true

/-- Consent holds and the engine is idle: SLEEP is entered, or OFF begins, from SLEEP too (R612). -/
def State.pwrEntry (s : State) : State :=
  if (s.phase ≠ .run ∧ s.phase ≠ .sleep) ∨ s.engineIdle = false then s
  else if s.consent 4 then s.offCommit (if s.rf Reg.PWR_STAT 28 26 = 4 then 2 else 1)
  else if s.phase = .run ∧ s.consent 0 = true then ({ s with phase := .sleep } : State).count (Reg.PWR_CNT 3)
  else s

/-- An operation on non-volatile memory ends; the commit before OFF follows one that was in its way (R638). -/
def State.nvmEnd (s : State) : State :=
  match s.nvm.op with
  | none => s
  | some o =>
    let t := s.nvmDone
    if s.phase = .commit ∧ o.thenOff = false then
      t.nvmCommitOp none (if s.rf Reg.PWR_STAT 28 26 = 4 then 2 else 1) true
    else t

/-- Everything but the non-volatile memory, the fuses and the levels on the pins is lost (R609). -/
def State.powerDown (s : State) : State :=
  { pending := s.pending
    variant := s.variant
    mem := s.mem.filter fun e => decide (nvmBase ≤ e.1)
    sec := { fuses := s.sec.fuses, draws := s.sec.draws }
    draw := s.draw
    clrPin := s.clrPin
    ports := s.ports.map fun e => (e.1, { perstHigh := e.2.perstHigh }) }

/-- OFF at once, without a commit: an operation under way stops after a word (R585, R608). -/
def State.powerLost (s : State) : State := (s.nvmCutShort true).fuseLost.powerDown

/-! ### The sag level (R621, R623) -/

/-- PWR_STAT.LEVEL. -/
def State.sagLevel (s : State) : Nat := s.rf Reg.PWR_STAT 28 26

/-- The level changes: counts, PEAK, the cause of vector 20, and SHED at a rise (R623, R627). -/
def State.sagSet (s : State) (l : Nat) : State :=
  let old := s.sagLevel
  if l = old ∨ old = 4 then s
  else
    let t := (s.setRf Reg.PWR_STAT 28 26 l).peak Reg.PWR_STAT 25 23 l
    let t := iter (fun n t => if old ≤ n ∧ n < l then t.count (Reg.PWR_CNT n) else t) 0 3 t
    let t := if old < l then t.det 7 else t
    t.causeBoth 20

/-- The sag monitor acts: from step 4 of R617 on, while PWR_SAG_CFG.EN is 1. -/
def State.sagMonitor (s : State) : Bool := s.awake && s.rb Reg.PWR_SAG_CFG 31

/-- Level 4 is reached: an operation other than COMMIT stops at its next word boundary, and a commit before OFF that runs
records the sag (R626, R638). The commit that the level itself asks for starts at the next strobe (R624). -/
def State.levelFour (s : State) : State :=
  let s := s.nvmStop
  match s.nvm.op with
  | some o => if o.thenOff then s.nvmCommitOp none 2 true else s
  | none => s

/-- VSENSE has stayed below the threshold of a higher level for FILT (R618, R621). -/
def State.sagRise (s : State) (l : Nat) : State :=
  if s.sagMonitor && decide (s.sagLevel < l) then
    if l = 4 ∧ s.ready = false then s.powerLost
    else if l = 4 then (s.sagSet 4).levelFour
    else s.sagSet l
  else s

/-- VSENSE has stayed above the release threshold: the level falls (R621). -/
def State.sagFall (s : State) (l : Nat) : State :=
  if s.sagMonitor && decide (l < s.sagLevel) then s.sagSet l else s

/-- A write to PWR_SAG_CFG: with EN = 0 the level is 0 (R621). -/
def State.sagCfg (s : State) (w : Word) : State :=
  let s := s.setReg Reg.PWR_SAG_CFG w
  if bit w 31 then s else s.sagSet 0

/-- The rule of R622 on thresholds and hysteresis. -/
def sagThrOk (thr : Word) (hys : Nat) : Bool :=
  decide (fld thr 23 16 < fld thr 31 24) && decide (fld thr 15 8 < fld thr 23 16) &&
  decide (fld thr 7 0 < fld thr 15 8) && decide (100 < fld thr 7 0) && decide (fld thr 31 24 + hys ≤ 255)

/-- The actions of the level at the first strobe after it changes (R624, R625). -/
def State.sagAct (s : State) : State :=
  let l := s.sagLevel
  let old := s.sagActed
  let s : State := { s with sagHeld := if s.frame % 16 = 0 then l else max s.sagHeld l }
  let s := if l < 3 then s.muteClear else s
  if l = old then s
  else
    let t : State := { s with
      sagActed := l
      sagCut := if old < 2 ∧ 2 ≤ l then true else s.sagCut && decide (2 ≤ l)
      sagRelease := if old < 3 ∧ 3 ≤ l then true else s.sagRelease && decide (3 ≤ l) }
    if l = 4 then t.offCommit 2 else t

end Sys2Proof.Machine
end

