-- ==== Sys2Proof/Machine/Judge.lean ====
section
/-! DEFINITION. The judgement of a write to a register word: whether the value is a defined encoding (R18, R19), and the
causes of R673 for which the register's own rules refuse the writer, the state or the value. -/

namespace Sys2Proof.Machine

/-- What the rules of a register find in a written word. -/
structure Verdict where
  /-- A reserved field is not zero, or a field takes an undefined value. -/
  enc    : Bool := false
  /-- Causes that refuse a direct write and a staged entry alike. -/
  rest   : List Nat := []
  /-- Causes that refuse a direct write only: a transaction judges their sums and states in checks of its own. -/
  direct : List Nat := []
deriving DecidableEq, Repr

/-- One cause, under a condition. -/
def causeIf (b : Bool) (c : Nat) : List Nat := if b then [c] else []

/-! ### Encodings (R18, R19) -/

/-- The bits that some field names. -/
def fieldBits (fs : List FieldSpec) : Word := fs.foldl (fun m f => m ||| fmask f.hi f.lo) 0

/-- A field takes the value. -/
def Legal.ok (l : Legal) (v : Nat) : Bool :=
  match l with
  | .any => true
  | .le n => decide (v ≤ n)
  | .range lo hi => decide (lo ≤ v) && decide (v ≤ hi)
  | .oneOf vs => vs.contains v

/-- Reserved bits are zero and every field takes its value. -/
def fieldsOk (fs : List FieldSpec) (w : Word) : Bool :=
  decide (w &&& ~~~ fieldBits fs = 0) && fs.all fun f => f.legal.ok (fld w f.hi f.lo)

/-- SPACE and INDEX of a debug window that R248 does not list. -/
def debugSelBad (w : Word) : Bool :=
  let i := fld w 7 0
  match fld w 11 8 with
  | 0 => decide (15 < i)
  | 1 => decide (127 < i)
  | 2 => decide (15 < i)
  | 3 => decide (35 < i)
  | 4 => decide (11 < i)
  | 5 => decide (3 < i)
  | _ => true

/-- Frames per second and slots of a commander port that exceed the bit clock of R387, enabled or not. -/
def bclkBad (fs : Nat) (w : Word) : Bool :=
  let slots := 2 * 2 ^ fld w 27 26
  !bit w 30 && decide (24576000 < fs * slots * widthOf (fld w 25 24))

/-- The bit clock of every enabled TDM port at the engine rate of the state: what a change of rate must keep (R387). -/
def State.bclkOk (s : State) : Bool :=
  (List.range 4).all fun n => let w := s.reg (Reg.OUT_TDM_CFG n); !(bit w 31 && bclkBad s.fs w)

/-- The conditions of R109 and R43, with A given. DESIGN CHOICE, unsafe: a write after which they do not hold is refused, also
where they failed before it and the write breaks none of them (R109; log entry 62). -/
def State.quotaOk (s : State) (a : Nat) : Bool :=
  let q := s.listed (Reg.VAL_PART_QUOTA 0) 1024 4
  q.all (fun e => decide (fld e.2 13 0 ≤ fld e.2 29 16)) && decide (sumOf (fun e => fld e.2 13 0) q ≤ s.slotLimit) &&
    decide (s.minCost ≤ a)

/-- The limit of R96. -/
def heapqOk (w : Word) : Bool := decide (fld w 30 16 + fld w 14 0 ≤ 15360)

/-- RANK above RMAX of R380. -/
def State.ranksOk (s : State) : Bool :=
  (s.listed (Reg.COL_BUS 0) 256 4).all fun e => decide (fld e.2 2 0 ≤ s.rmax)

/-- Every enabled P1 entry meets its stage condition (R380). -/
def State.stagesOk (s : State) : Bool := s.enabledTasks.all fun t => !s.taskP1 t || s.stageOk t

/-- Every valid program costs less than V (R300). -/
def State.costsOk (s : State) : Bool := s.progs.all fun e => decide (e.2.cost < s.vBudget)

/-! ### Who may write -/

/-- R103: an owner field and the fields that only the owner's agent may write. -/
def ownerCauses (cur new agent : Nat) (others : Bool) : List Nat :=
  if cur = 0 then causeIf (!((decide (new = 0) || decide (new = agent)) && !others)) 1
  else causeIf (decide (cur ≠ agent)) 1

/-- A register that only the named agent may write. -/
def onlyAgent (owner agent : Nat) : List Nat := causeIf (decide (owner ≠ agent)) 1

/-- A field changes. -/
def changed (old w : Word) (hi lo : Nat) : Bool := decide (fld old hi lo ≠ fld w hi lo)

/-- Owner of converter group g. -/
def State.dacOwner (s : State) (g : Nat) : Nat := s.rf (Reg.DAC_GCFG g) 31 30

/-- R384: EN is 0, or the bus is the agent's. -/
def State.routeMine (s : State) (agent : Nat) (w : Word) : Bool :=
  !bit w 31 || decide (s.rf (Reg.COL_BUS (fld w 7 0)) 31 30 = agent)

/-- Some channel's source is AUDIO or FORCED (R439). -/
def State.dacSounding (s : State) : Bool :=
  (List.range s.dacChannels).any fun c => decide (s.dacSrc c = 2) || decide (s.dacSrc c = 3)

/-! ### The rules of each register -/

/-- The rules of a port's block (R483, R484, R490, R496). -/
def State.judgeHp (s : State) (q : Req) (h : RegHit) (a : Nat) (w : Word) : Verdict :=
  let own := causeIf (decide (Req.ix q ≠ h.i)) 1
  let en := s.rb (Reg.HPx_RING_CFG h.i h.j) 31
  let moves := causeIf (en && decide (s.reg a ≠ w)) 6
  match h.name with
  | .HPx_SEDB =>
    if Req.ix q = h.i then {}
    else if 2 ≤ Req.ix q then { rest := causeIf (fld w 1 0 ≠ 0 && decide (fld w 1 0 ≠ 2 ^ (Req.ix q - 2))) 1 }
    else { rest := [1] }
  | .HPx_RING_BASE => { enc := !h.upper && decide (fld w 11 0 ≠ 0), rest := own ++ moves }
  | .HPx_CPL_BASE => { enc := !h.upper && decide (fld w 11 0 ≠ 0), rest := own ++ moves }
  | .HPx_CPL_SHADOW => { enc := !h.upper && decide (fld w 2 0 ≠ 0), rest := own ++ moves }
  | .HPx_RING_CFG => { rest := own ++ causeIf (en && changed (s.reg a) w 3 0) 6 }
  | .HPx_CPL_DB => { rest := own, direct := causeIf (decide (2 ^ s.rf (Reg.HPx_RING_CFG h.i h.j) 3 0 ≤ fld w 11 0)) 5 }
  | _ => { rest := own }

/-- The triggers of a write to TXN_CTRL: OPEN, COMMIT, ABORT. -/
def txnTriggers (w : Word) : Nat := b2n (bit w 0) + b2n (bit w 1) + b2n (bit w 2)

/-- The rules of the SEM, TXN and EVT blocks (R529 to R531, R73, R88, R96). -/
def State.judgeShared (s : State) (q : Req) (h : RegHit) (a : Nat) (w : Word) : Verdict :=
  let agent := Req.agent q
  match h.name with
  | .SEM_REL => { rest := causeIf (decide (s.holder h.i ≠ some q)) 1 }
  | .SEM_CTRL => { rest := causeIf s.semsHeld 6 }
  | .TXN_CTRL =>
    let st := (s.txn h.i).st
    let bad := (bit w 0 && !s.txnMayOpen h.i) || (bit w 1 && decide (st ≠ .opened)) || (bit w 2 && !st.holds)
    { enc := decide (1 < txnTriggers w), rest := causeIf (decide (Req.ix q ≠ h.i)) 1 ++ causeIf bad 6 }
  | .TXN_SDATA =>
    let refused := if h.upper then s.stageCause h.i w.toNat else 0
    { rest := causeIf (decide (Req.ix q ≠ h.i)) 1, direct := causeIf (decide (refused ≠ 0)) refused }
  | .TXN_STAT => { rest := causeIf (decide (Req.ix q ≠ h.i)) 1 }
  | .TXN_TIME => { rest := causeIf (decide (Req.ix q ≠ h.i)) 1 }
  | .TXN_ERR => { rest := causeIf (decide (Req.ix q ≠ h.i)) 1 }
  | .EVT_HEAPQ => { direct := causeIf (!heapqOk w) 5 }
  | .EVT_HMAP_H0 => { rest := causeIf (decide (s.rf (Reg.EVT_HMAP_CTRL h.i) 2 1 = 1)) 6 }
  | .EVT_HMAP_E0 => { rest := causeIf (decide (s.rf (Reg.EVT_HMAP_CTRL h.i) 2 1 = 1)) 6 }
  | .EVT_HMAP_K => { rest := causeIf (decide (s.rf (Reg.EVT_HMAP_CTRL h.i) 2 1 = 1)) 6 }
  | .EVT_SRC_MODE => { enc := decide (8 ≤ h.i) && decide (fld w 2 1 = 1) }
  | .EVT_PARTMAP =>
    let cur := s.rf a 31 30
    let new := fld w 31 30
    { rest := causeIf ((decide (cur ≠ 0) && decide (cur ≠ agent)) || (decide (new ≠ 0) && decide (new ≠ agent))) 1 }
  | _ => {}

/-- One controller of MOD_PART_CSEL: space 0 uses 7 index bits. -/
def cselBad (w : Word) (lo : Nat) : Bool := decide (fld w (lo + 15) (lo + 14) = 0) && decide (fld w (lo + 13) (lo + 7) ≠ 0)

/-- The rules of a fixed task's registers (R307, R308). -/
def State.judgeTask (s : State) (q : Req) (h : RegHit) (a : Nat) (w : Word) : Verdict :=
  let agent := Req.agent q
  let owner := s.taskOwner h.i
  let en := s.taskEn h.i
  let old := s.reg a
  match h.name with
  | .PUP_TASK_CFG =>
    let others := decide ((old ^^^ w) &&& 0xFFFFFF00 ≠ 0) || bit w 1
    let locked := en && decide ((old ^^^ w) &&& 0x7FFFFFC0 ≠ 0)
    let t := s.setReg a (setFld w 1 0 0)
    { rest := ownerCauses owner (fld w 7 6) agent others ++ causeIf locked 6
      direct := causeIf (bit w 31 && !en && !t.enableOk h.i) 5 }
  | _ => { rest := onlyAgent owner agent ++ causeIf (en && decide (old ≠ w)) 6 }

/-- The rules of the VAL, PUP and MOD blocks (R103, R104, R109, R261, R294, R323). -/
def State.judgeVoices (s : State) (q : Req) (h : RegHit) (a : Nat) (w : Word) : Verdict :=
  let agent := Req.agent q
  let part := onlyAgent (s.rf (Reg.VAL_PART_OWNER h.i) 31 30) agent
  match h.name with
  | .VAL_PART_OWNER => { rest := ownerCauses (s.rf a 31 30) (fld w 31 30) agent false }
  | .VAL_PART_QUOTA => { rest := part, direct := causeIf (!(s.setReg a w).quotaOk s.budget) 5 }
  | .VAL_PART_CFG => { rest := part }
  | .VAL_PART_PROG => { rest := part }
  | .MOD_PART_PATCH => { rest := part }
  | .MOD_PART_DFMT => { rest := part }
  | .MOD_PART_NSEL => { rest := part }
  | .MOD_PART_CSEL => { enc := cselBad w 0 || cselBad w 16, rest := part }
  | .MOD_CTRL => { rest := causeIf (!bit w 0 && s.rb Reg.VAL_CTRL 0) 6 }
  | .PUP_CTRL =>
    { direct := causeIf (changed (s.reg a) w 28 24 && (s.rb Reg.VAL_CTRL 0 || !s.enabledTasks.isEmpty)) 6 }
  | .PUP_TASK_CFG => s.judgeTask q h a w
  | .PUP_TASK_MEM => s.judgeTask q h a w
  | .PUP_TASK_IN => s.judgeTask q h a w
  | .VE_CTRL => { rest := causeIf (!s.lockOpen (Req.ix q)) 4 }
  | .VE_DBG_SEL => { enc := debugSelBad w, rest := causeIf (!s.lockOpen (Req.ix q)) 4 }
  | _ => {}

/-- The rules of the COL and OUT blocks (R3, R379 to R381, R384 to R388). -/
def State.judgeMix (s : State) (q : Req) (h : RegHit) (a : Nat) (w : Word) : Verdict :=
  let agent := Req.agent q
  let old := s.reg a
  let t := s.setReg a w
  match h.name with
  | .COL_CTRL =>
    let moves := changed old w 10 8 || changed old w 3 0
    { direct := causeIf (moves && s.rb Reg.PUP_CTRL 0) 6 ++ causeIf (moves && !(t.ranksOk && t.stagesOk)) 5 }
  | .COL_BUS =>
    { rest := ownerCauses (fld old 31 30) (fld w 31 30) agent (changed old w 2 0)
      direct := causeIf (changed old w 2 0 && !(decide (fld w 2 0 ≤ s.rmax) && t.stagesOk)) 5 }
  | .COL_IN => { rest := causeIf (!(s.routeMine agent old && s.routeMine agent w)) 1 }
  | .OUT_MAP => { rest := causeIf (!(s.routeMine agent old && s.routeMine agent w)) 1 }
  | .OUT_MAP_DAC =>
    { rest := causeIf (!(s.routeMine agent old && s.routeMine agent w)) 1
      direct := causeIf (decide (s.variant = .c) && decide (4 ≤ h.i) && bit w 31) 5 }
  | .OUT_TDM_CFG =>
    let mode := fld w 29 28
    let slots := fld w 27 26
    let combo := (decide (mode < 2) && decide (slots ≠ 0)) || (decide (mode = 2) && decide (slots = 0))
    { enc := combo || decide (fld w 25 24 < fld w 23 22) || (decide (h.i ≠ 0) && bit w 30)
      direct := causeIf (bclkBad s.fs w) 5 }
  | _ => {}

/-- Channels 4 to 7 and group 1 on the PV8K1-C (R2). -/
def State.dacAbsent (s : State) (h : RegHit) : Bool := dacMissing s.variant h

/-- The rules of the DAC and MCK blocks (R2, R4, R439, R447, R454, R470, R471). -/
def State.judgeOut (s : State) (q : Req) (h : RegHit) (a : Nat) (w : Word) : Verdict :=
  let agent := Req.agent q
  let old := s.reg a
  let group := onlyAgent (s.dacOwner (dacGroup h.i)) agent
  let clock := onlyAgent (s.rf Reg.MCK_CTRL 31 30) agent
  if s.dacAbsent h then { enc := true }
  else
  match h.name with
  | .DAC_CTRL => { rest := causeIf (bit old 0 && !bit w 0 && s.dacSounding) 6 }
  | .DAC_STROBE =>
    if s.variant = .c ∧ bit w 1 = true then { direct := [5] }
    else { rest := (if bit w 0 then onlyAgent (s.dacOwner 0) agent else []) ++ (if bit w 1 then onlyAgent (s.dacOwner 1) agent else []) }
  | .DAC_GCFG =>
    { rest := ownerCauses (fld old 31 30) (fld w 31 30) agent (changed old w 5 4 || changed old w 1 0)
      direct := causeIf (decide (s.variant = .c) && decide (fld w 5 4 = 2)) 5 }
  | .DAC_CH_CFG => { rest := group }
  | .DAC_CH_CODE => { rest := group }
  | .DAC_CH_PUF => { rest := group }
  | .DAC_CH_STAT => { rest := group }
  | .DAC_CH_CAL => { rest := group }
  | .MCK_CTRL =>
    let rate := changed old w 3 2
    let others := rate || changed old w 9 8 || changed old w 5 4 || changed old w 0 0
    let t := s.setReg a w
    { rest := ownerCauses (fld old 31 30) (fld w 31 30) agent others ++ causeIf (!bit w 0 && s.rb Reg.EVT_CTRL 0) 6
      direct := causeIf ((rate || changed old w 9 8) && s.rb Reg.EVT_CTRL 0) 6 ++
        causeIf (rate && !(t.quotaOk t.aBudget && t.bclkOk)) 5 }
  | .MCK_GLIDE => { rest := clock }
  | .MCK_REF => { rest := clock }
  | _ => {}

/-- The rules of a UART (R540, R551, R554, R565). A write to UART_RXD or a UART_CNT, which no rule of R565 allows, is refused with
cause 1 (DESIGN CHOICE, unsafe: log entry 62). -/
def State.judgeUart (s : State) (q : Req) (h : RegHit) (a : Nat) (w : Word) : Verdict :=
  let dest := causeIf (decide (destAgent (s.uartDest h.i) ≠ Req.agent q)) 1
  let on := s.uartOn h.i
  match h.name with
  | .UART_CFG =>
    if on then { enc := uartCfgBad h.i w, rest := dest ++ causeIf (decide (w ≠ setFld (s.reg a) 31 31 0)) 6 }
    else { enc := uartCfgBad h.i w }
  | .UART_DIV => { rest := causeIf on 6 }
  | .UART_CTRL => { rest := dest }
  | .UART_IEN => { rest := dest }
  | .UART_FTXD => { rest := dest }
  | .UART_FID => { rest := dest }
  | .UART_STAT => { rest := dest }
  | .UART_TXD => { rest := dest ++ causeIf (decide (s.uartMode h.i ≠ 0) || decide (16 ≤ (s.uart h.i).txq.length)) 6 }
  | .UART_FHDR =>
    { rest := dest ++ causeIf (bit w 31 && (!on || decide (s.uartMode h.i ≠ 1) || (s.uart h.i).frame.isSome)) 6 }
  | _ => { rest := [1] }

/-- The rules of the timers and check units (R567, R572, R580). -/
def State.judgeCount (s : State) (q : Req) (h : RegHit) (w : Word) : Verdict :=
  let tmr := s.reg (Reg.TMR_CFG h.i)
  let chk := s.reg (Reg.CHK_CFG h.i)
  match h.name with
  | .TMR_CFG => { rest := causeIf (!cfgMay tmr w q) 1 ++ causeIf (s.tmrRun h.i) 6 }
  | .TMR_COUNT => { rest := causeIf (!userMay tmr q) 1 }
  | .TMR_STAT => { rest := causeIf (!userMay tmr q) 1 }
  | .TMR_EXPSUM => {}
  | .TMR_REFNOW => {}
  | .CHK_CFG => { rest := causeIf (!cfgMay chk w q) 1 }
  | .CHK_ACFG => { enc := chkAcfgBad w, rest := causeIf (!userMay chk q) 1 }
  | _ => { rest := causeIf (!userMay chk q) 1 }

/-- The rules of the SEC and NVM blocks (R585, R586, R596, R600, R605, R634). -/
def State.judgeSec (s : State) (q : Req) (h : RegHit) (w : Word) : Verdict :=
  let win := causeIf (decide (Req.ix q ≠ h.i)) 1
  let one (c : Nat) : List Nat := causeIf (decide (c ≠ 0)) c
  match h.name with
  | .SEC_FUSE_CTRL => { rest := one (s.fuseJudge q w) }
  | .SEC_SEAL_REQ => { rest := one (s.sealJudge (Req.agent q) w) }
  | .SEC_DBG_CHAL => { rest := win }
  | .SEC_DBG_RESP => { rest := win }
  | .SEC_DBG_CTRL => { rest := win }
  | .SEC_ATT_BODY =>
    { rest := win ++ (if s.sec.quotes.contains h.i then [6] else causeIf (decide (12 ≤ h.j)) 1) }
  | .SEC_ATT_CTRL => { rest := win }
  | .SEC_ATT_STAT => { rest := win }
  | .SEC_ATT_SIG => { rest := win }
  | .NVM_CMD => { enc := decide (fld w 31 28 ≠ 3) && (recordOf (fld w 7 0)).isNone, rest := causeIf s.nvm.op.isSome 6 }
  | .NVM_SRC => { enc := decide (fld w 2 0 ≠ 0), rest := win }
  | .NVM_LEN => { rest := win }
  | _ => {}

/-- The rules of the PWR and AGE blocks (R611, R622, R651). -/
def State.judgePower (s : State) (q : Req) (h : RegHit) (a : Nat) (w : Word) : Verdict :=
  match h.name with
  | .PWR_REQSET => { rest := causeIf (foreignBits q w) 1 }
  | .PWR_REQCLR => { rest := causeIf (foreignBits q w) 1 }
  | .PWR_SAG_THR => { enc := !sagThrOk w (s.rf Reg.PWR_SAG_CFG 7 4) }
  | .AGE_CTRL => { rest := causeIf (decide (Req.ix q < 2) && decide ((s.reg a ^^^ w) &&& 0x00FFFF0F ≠ 0)) 1 }
  | _ => {}

/-- The rules of a Stage Engine's registers (R403, R406, R411, R412, R416, R421, R422). -/
def State.judgeStg (s : State) (q : Req) (h : RegHit) (w : Word) : Verdict :=
  let self := causeIf (decide (q ≠ seReq h.i)) 1
  match h.name with
  | .STG_CTRL => { rest := s.stgCtrlCauses q h.i w }
  | .STG_DOORBELL => { rest := doorbellCauses q h.i w }
  | .STG_LOAD_SRC => { enc := decide (fld w 2 0 ≠ 0) }
  | .STG_SVC_POP => { rest := self }
  | .STG_SENDBUF => { rest := self }
  | .STG_SENDGO => { rest := self }
  | .STG_DBG_SEL => { enc := debugSelBad w, rest := causeIf (!s.lockOpen (Req.ix q)) 4 }
  | _ => {}

/-- The rules of the register's block. -/
def State.blockJudge (s : State) (q : Req) (h : RegHit) (a : Nat) (w : Word) : Verdict :=
  match a / 0x10000 with
  | 0x701 => s.judgeHp q h a w
  | 0x702 => s.judgeHp q h a w
  | 0x703 => s.judgeShared q h a w
  | 0x704 => s.judgeShared q h a w
  | 0x705 => s.judgeShared q h a w
  | 0x706 => s.judgeVoices q h a w
  | 0x707 => s.judgeVoices q h a w
  | 0x708 => s.judgeVoices q h a w
  | 0x709 => s.judgeVoices q h a w
  | 0x70A =>
    match h.name with
    | .WS_OWN =>
      let c := s.wsOwnJudge (Req.agent q) h.i w
      { rest := causeIf (decide (c ≠ 0) && decide (c ≠ 5)) c, direct := causeIf (decide (c = 5)) 5 }
    | _ => {}
  | 0x70B => s.judgeMix q h a w
  | 0x70C => s.judgeMix q h a w
  | 0x70D => s.judgeOut q h a w
  | 0x70E => s.judgeOut q h a w
  | 0x70F => s.judgeUart q h a w
  | 0x710 => s.judgeCount q h w
  | 0x711 => s.judgeCount q h w
  | 0x712 => s.judgeSec q h w
  | 0x713 => s.judgeSec q h w
  | 0x714 => s.judgePower q h a w
  | 0x715 => s.judgePower q h a w
  | 0x716 => s.judgeStg q h w
  | _ => {}

/-- The judgement of a write of word `w` at address `a`, which hit `h`. -/
def State.wordJudge (s : State) (q : Req) (h : RegHit) (a : Nat) (w : Word) : Verdict :=
  let v := s.blockJudge q h a w
  { v with enc := v.enc || !fieldsOk h.wordFields w }

/-- The first of the causes in the order of R673, 0 when there is none. -/
def firstCause (cs : List Nat) : Nat := ([3, 2, 4, 1, 6, 5].find? fun c => cs.contains c).getD 0

/-- Registers that a requester may write before start-up reaches step 7 (R619). -/
def earlyWritable (n : RegName) : Bool :=
  match n with
  | .PWR_STAT => true
  | .SYS_ID => true
  | _ => false

/-- The cause of refusal of a direct write, 0 when it is accepted (R673). Start-up and a write set name theirs for every
requester and value (R534, R619). -/
def State.directCause (s : State) (q : Req) (h : RegHit) (a : Nat) (w : Word) : Nat :=
  if s.ready = false ∧ earlyWritable h.name = false then 6
  else if s.inWriteSet none a then 6
  else
    let v := s.wordJudge q h a w
    firstCause (v.rest ++ v.direct ++ causeIf v.enc 5)

end Sys2Proof.Machine
end

