-- ==== Sys2Proof/Machine/RegRead.lean ====
section
/-! DEFINITION. Register reads: the value of each word as a requester reads it (R14, R16, R17), and what the read does. -/

namespace Sys2Proof.Machine

/-! ### Values computed at the read -/

/-- VAL_SLOT.STATE (R111). -/
def SlotState.code : SlotState → Nat
  | .free => 0
  | .starting => 1
  | .active => 2
  | .released => 3
  | .dying => 4
  | .faulted => 5

/-- VAL_SLOT[v]; the fields of the occupant read zero for a free slot. -/
def State.valSlot (s : State) (v : Nat) : Word :=
  let x := s.slot v
  if x.state = .free then 0
  else BitVec.ofNat 32 (x.state.code * 2 ^ 29 + b2n x.held * 2 ^ 28 + x.part * 2 ^ 16 + x.handle.toNat)

/-- VAL_TAIL[t]. -/
def State.valTail (s : State) (t : Nat) : Word :=
  let x := s.tail t
  if x.dying then BitVec.ofNat 32 (4 * 2 ^ 29 + x.part * 2 ^ 16 + x.voice) else 0

/-- A task descriptor (R304). -/
def Task.descriptor (t : Task) (saved : Bool) : Dword :=
  BitVec.ofNat 64 (t.epoch.toNat * 2 ^ 56 + t.prog % 1024 * 2 ^ 46 + t.level % 4 * 2 ^ 44 + b2n t.ready * 2 ^ 43 +
    b2n saved * 2 ^ 42 + t.blk % 1024 * 2 ^ 32 + t.region % 2048 * 2 ^ 16 + t.tag.toNat)

/-- PUP_QVIEW: the descriptor that PUP_QSEL selects, the queued tasks before the saved ones. -/
def State.qview (s : State) : Dword :=
  let c := s.core (s.rf Reg.PUP_QSEL 13 8)
  let all := c.listed.map (fun t => t.descriptor false) ++ c.saved.map (fun r => r.task.descriptor true)
  (all[s.rf Reg.PUP_QSEL 7 0]?).getD 0

/-- PUP_VPLACE[x]; the epoch belongs to the slot (R319), the home core and the region to a placed context. A migration shows
the new core from the strobe that assigns it (R325). -/
def State.vplace (s : State) (x : Nat) : Word :=
  let c := s.ctx x
  BitVec.ofNat 32 ((if c.placed then 2 ^ 31 + c.home * 2 ^ 25 + c.homeBase else 0) + c.epoch.toNat * 2 ^ 17)

/-- The three words of a program directory entry (R300). -/
def State.pdir (s : State) (g w : Nat) : Word :=
  match s.prog g with
  | none => 0
  | some p =>
    match w with
    | 0 => BitVec.ofNat 32 (2 ^ 31 + p.len * 2 ^ 17 + p.base)
    | 1 => BitVec.ofNat 32 (p.cost * 2 ^ 16 + p.kind * 2 ^ 14 + p.mem)
    | _ => BitVec.ofNat 32 p.trap

/-- HPx_LINK. -/
def State.linkWord (s : State) (p : Nat) : Word :=
  let h := s.port p
  BitVec.ofNat 32 ((if h.d3hot then 3 else 0) * 2 ^ 28 + h.link.code * 2 ^ 24 + h.width.toNat * 2 ^ 4 + h.speed.toNat)

/-- The held state of a Stage Engine under its debug window (R422). -/
def State.stgDebug (s : State) (e : Nat) : Dword :=
  let g := s.stg e
  match g.st, g.heldArch, s.rb (Reg.STG_CTRL e) 5 with
  | .haltfault, some a, true => debugData a 0 (s.reg (Reg.STG_DBG_SEL e))
  | _, _, _ => 0

/-- The held state of a Voice Engine under its debug window (R248). -/
def State.veDebug (s : State) (n : Nat) : Dword :=
  let c := s.core n
  match c.st, c.heldArch, s.rb (Reg.VE_CTRL n) 0 with
  | .haltfault, some a, true => debugData a a.spillBase (s.reg (Reg.VE_DBG_SEL n))
  | _, _, _ => 0

/-- The 64-bit value of a wide register that is computed; none for one that is stored. -/
def State.wideNow (s : State) (q : Req) (h : RegHit) : Option Dword :=
  match h.name with
  | .SEM_HELD => some s.semHeld
  | .EVT_NOW => some (BitVec.ofNat 64 s.evtNow)
  | .PUP_ADMIT => some (BitVec.ofNat 64 (s.costSum * 2 ^ 32 + s.budget))
  | .PUP_ADMIT_MEM => some (BitVec.ofNat 64 (s.memSum * 2 ^ 32 + s.memLimit))
  | .PUP_QVIEW => some s.qview
  | .VE_BUNDLES => some (s.core h.i).bundles
  | .VE_DBG_DATA => some (if s.lockOpen (Req.ix q) then s.veDebug h.i else 0)
  | .TMR_REFNOW => some (BitVec.ofNat 64 s.refTotal)
  | .STG_DBG_DATA => some (if s.lockOpen (Req.ix q) then s.stgDebug h.i else 0)
  | .NVM_RINFO => some (s.rinfo h.i)
  | _ => none

/-- The 32-bit value of a register, its write-only bits not yet masked. -/
def State.wordNow (s : State) (q : Req) (h : RegHit) (a : Nat) : Word :=
  let w := s.reg a
  let i := h.i
  match h.name with
  | .SYS_DET => setFld w 0 0 (b2n (decide (fld w 7 2 = 0)))
  | .HPx_LINK => s.linkWord i
  | .MSIX_PBA => if h.j = 0 then (s.port i).pendVec else 0
  | .TXN_STAT => s.txnStat i
  | .TXN_ERR => s.txnErr i
  | .EVT_HEAP => setFld w 14 0 s.heap.length
  | .VAL_OCC => BitVec.ofNat 32 (s.slotsUsed * 2 ^ 16 + s.tailsUsed)
  | .VAL_PART_LIVE => setFld w 13 0 (s.live i)
  | .VAL_TAIL => s.valTail i
  | .VAL_SLOT => s.valSlot i
  | .PUP_STAT => setFld w 4 4 (b2n (s.cores.any fun e => s.strained e.1))
  | .PUP_PLAN => BitVec.ofNat 32 (s.vBudget % 65536 * 2 ^ 16 + s.nve)
  | .PUP_INTAKE => setFld w 12 0 s.intake
  | .PUP_QDEPTH => setFld (setFld w 30 28 (s.core i).saved.length) 8 0 (s.core i).depth
  | .PUP_PLANLOAD =>
    BitVec.ofNat 32 (s.planLoad i % 65536 * 2 ^ 16 + sumOf (fun r => r.2) (s.regionsOn i) % 2048)
  | .PUP_PDIR_LOC => s.pdir i 0
  | .PUP_PDIR_HDR => s.pdir i 1
  | .PUP_PDIR_TRAP => s.pdir i 2
  | .PUP_TASK_CFG => setFld w 0 0 (b2n (s.tagPresent (fixedTag i)))
  | .PUP_VPLACE => s.vplace i
  | .VE_STAT => s.veStat i
  | .VE_CTRL => setFld w 2 2 (b2n (s.core i).oos)
  | .WS_STAT => setFld w 15 0 s.clusterView
  | .DAC_STAT => s.dacStat
  | .DAC_CH_STAT => if s.dacAbsent h then 0 else s.dacChStat i
  | .DAC_CH_CODE => if s.dacAbsent h then 0 else if s.variant = .c then setFld w 15 0 0 else w
  | .DAC_CH_CFG => if s.dacAbsent h then 0 else w
  | .DAC_CH_PUF => if s.dacAbsent h then 0 else w
  | .DAC_CH_CAL => if s.dacAbsent h then 0 else w
  | .DAC_GCFG => if s.dacAbsent h then 0 else w
  | .MCK_STAT => s.mckStat
  | .MCK_FREQ => wordI s.mck.y
  | .MCK_HOLD => wordI s.mck.yHold
  | .MCK_PHASE => s.mckPhase
  | .MCK_YREF => s.mckYref i
  | .UART_STAT => s.uartStat i
  | .TMR_EXPSUM => s.tmrExpsum
  | .CHK_CRC => if userMay (s.reg (Reg.CHK_CFG i)) q then s.chkCrc i else 0
  | .SEC_STAT => s.secStat
  | .SEC_SVN => BitVec.ofNat 32 s.secVersion
  | .SEC_LRH => strWord s.lrh i
  | .SEC_MKH => strWord s.mkh i
  | .SEC_FUSE_CTRL => BitVec.ofNat 32 (8 * b2n s.sec.fuseOp.isSome)
  | .SEC_IDPUB => strWord s.idpub i
  | .SEC_PMEAS => strWord s.measurement i
  | .SEC_DBG_CHAL => if Req.ix q = i then w else 0
  | .NVM_STAT => s.nvmStat
  | .PWR_STAT => s.pwrStat
  | .AGE_STAT => s.ageStat
  | .AGE_HOURS => sat32 s.hours
  | .STG_STAT => s.stgStat i
  | .STG_SVC_STAT => BitVec.ofNat 32 (s.stg i).svcq.length
  | .STG_SVC_HEAD => if q = seReq i then s.svcHead i h.j else 0
  | _ => w

/-- A port's block reads zero for every other requester, but for HPx_SEDB (R483). -/
def hiddenFrom (q : Req) (h : RegHit) (a : Nat) : Bool :=
  let block := a / 0x10000
  (decide (block = 0x701) || decide (block = 0x702)) && decide (Req.ix q ≠ h.i) && decide (h.name ≠ .HPx_SEDB)

/-! ### What a read does -/

/-- Bits of a word with an access code. -/
def RegHit.bitsOf (h : RegHit) (acc : Access) : Word := fieldBits (h.wordFields.filter fun f => decide (f.acc = acc))

/-- The lower word of an rl register. -/
def RegHit.latches (h : RegHit) : Bool := h.wide && h.fields.any fun f => decide (f.acc = .rl)

/-- The key of a requester's latch for a register (R16). -/
def latchKey (q : Req) (a : Nat) : Nat := 2 ^ 32 * Req.ix q + a

/-- Debug data, which a requester whose lock is closed reads as zero, a half that it latched before too (R248). -/
def State.veiled (s : State) (q : Req) (h : RegHit) : Bool :=
  match h.name with
  | .VE_DBG_DATA => !s.lockOpen (Req.ix q)
  | .STG_DBG_DATA => !s.lockOpen (Req.ix q)
  | _ => false

/-- A full read of the word at `a` by requester q: its value and what the read does (R14, R16, R17, R509). -/
def State.readWord (s : State) (q : Req) (h : RegHit) (a : Nat) : Word × State :=
  if hiddenFrom q h a then (0, s)
  else
    match h.name with
    | .SEM_TRY => s.semTry q h.i
    | .UART_RXD => s.uartRead q h.i
    | .TMR_COUNT => (s.tmrCount h.i, s)
    | _ =>
      if h.latches then
        if h.upper then (if s.veiled q h then 0 else tget 0 s.latch (latchKey q a), s)
        else
          let v := (s.wideNow q h).getD (s.reg64 a)
          (v.setWidth 32, { s with latch := tput 0 s.latch (latchKey q (a + 4)) ((v >>> 32).setWidth 32) })
      else
        let w := if h.wide then
            (match s.wideNow q h with
             | some v => if h.upper then (v >>> 32).setWidth 32 else v.setWidth 32
             | none => s.reg a)
          else s.wordNow q h a
        let rc := h.bitsOf .rc
        let t := if rc = 0 then s else s.setReg a (s.reg a &&& ~~~ rc)
        (w &&& ~~~ h.bitsOf .wo, t)

/-- An atomic 64-bit read of a wide register: it leaves the latch unchanged (R509). -/
def State.readWide (s : State) (q : Req) (h : RegHit) (a : Nat) : Dword :=
  if hiddenFrom q h a then 0
  else
    match s.wideNow q h with
    | some v => v
    | none => if h.name = .TXN_SDATA then (s.reg a).setWidth 64 else s.reg64 a

/-- The cause that a read of a defined register records, 0 for none: a host's read that a rule calls refused. The other Stage
Engine's returns zero and raises nothing (R416). -/
def readCause (q : Req) (h : RegHit) : Nat :=
  match h.name with
  | .STG_SVC_HEAD => if Req.ix q < 2 then 1 else 0
  | _ => 0

end Sys2Proof.Machine
end

