-- ==== Sys2Proof/Machine/RegWrite.lean ====
section
/-! DEFINITION. What an accepted write to a register word does: the stored word (R14) and the action of its unit. The
words that a transaction may stage come first; the words of the barred blocks follow in Access.lean. -/

namespace Sys2Proof.Machine

/-- The stored word after a write (R14). -/
def mergeWord (h : RegHit) (old w : Word) : Word :=
  let rw := h.bitsOf .rw
  let v := (old &&& ~~~ rw) ||| (w &&& rw)
  (v &&& ~~~ (w &&& h.bitsOf .w1c)) ||| (w &&& h.bitsOf .w1s)

/-- A write with no action of its own. -/
def State.storeWord (s : State) (h : RegHit) (a : Nat) (w : Word) : State := s.setReg a (mergeWord h (s.reg a) w)

/-! ### Events and parts -/

/-- Half of a 64-bit value replaced. -/
def setHalf (x : Dword) (upper : Bool) (w : Word) : Dword :=
  if upper then w ++ x.setWidth 32 else (x >>> 32).setWidth 32 ++ w

/-- LOAD applies the written H0, E0 and K in MANUAL mode (R85). -/
def State.hmapLoad (s : State) (p : Nat) : State :=
  let m := s.hm p
  (s.mapIs p m.wH0.toNat m.wE0.toNat m.wK.toNat).setRf (Reg.EVT_HMAP_STAT p) 2 2 1

/-- A write to EVT_HMAPx_CTRL (R85, R87). One write that changes MODE to MANUAL and sets LOAD clears VALID for the change and
then loads, so VALID ends 1 (DESIGN CHOICE, unsafe: log entry 59). -/
def State.hmapCtrl (s : State) (p : Nat) (w : Word) : State :=
  let a := Reg.EVT_HMAP_CTRL p
  let moved := changed (s.reg a) w 2 1
  let s := s.setReg a (setFld w 0 0 0)
  let s := if moved then s.setRf (Reg.EVT_HMAP_STAT p) 2 2 0 else s
  if bit w 0 ∧ fld w 2 1 = 2 then s.hmapLoad p else s

/-- A write to a part-map entry (R74). -/
def State.partmapWrite (s : State) (i : Nat) (w : Word) : State :=
  s.setReg (Reg.EVT_PARTMAP i) (if fld w 31 30 = 0 then setFld w 16 16 0 else w)

/-- A write to an owner of a part; none cuts its voices at the next control tick (R105). -/
def State.partOwnerWrite (s : State) (p : Nat) (w : Word) : State :=
  let was := s.rf (Reg.VAL_PART_OWNER p) 31 30
  let s := s.setReg (Reg.VAL_PART_OWNER p) w
  if was ≠ 0 ∧ fld w 31 30 = 0 then s.setPart p { s.part p with cutAll := true } else s

/-- A write to MOD_PART_CSEL sets the captured values of its two entries to 0 (R287). -/
def State.cselWrite (s : State) (p w : Nat) (v : Word) : State :=
  let x := s.part p
  (s.setReg (Reg.MOD_PART_CSEL p w) v).setPart p { x with pctl := setAt (setAt x.pctl (2 * w) 0) (2 * w + 1) 0 }

/-- A write to PUP_TASK_CFG[t]: RUN = 1 asks a P3 entry for one run (R301, R310). -/
def State.taskCfgWrite (s : State) (t : Nat) (w : Word) : State :=
  let a := Reg.PUP_TASK_CFG t
  let run := b2n ((bit w 1 || s.rb a 1) && decide (fld w 29 28 = 3))
  let s := s.setReg a (setFld (setFld w 1 1 run) 0 0 0)
  s.createBackground t

/-! ### Converters and the media clock -/

/-- Writes that the PV8K1-C ignores: its codes come from non-volatile memory (R437). -/
def State.dacCode (s : State) (h : RegHit) (a : Nat) (w : Word) : State :=
  match s.variant, h.name with
  | .c, .DAC_CH_PUF => s
  | .c, _ => s.storeWord h a (setFld w 15 0 0)
  | .f, _ => s.storeWord h a w

/-- A change of engine rate (R84, R455, R469). -/
def State.rateChanged (s : State) : State :=
  let s := s.freeAll
  let s : State := { s with col := { s.col with cuts := [] } }
  let s := s.setMck { s.mck with cands := [] }
  let s := if s.mck.st = .off then s else s.lockNow.retarget
  s.mapsInvalid.markInvalid (s.frame + 16 * (s.depth + 1))

/-- A write to MCK_CTRL (R455, R456, R462). -/
def State.mckCtrl (s : State) (w : Word) : State :=
  let old := s.reg Reg.MCK_CTRL
  let s := s.setMck { s.mck with ratePend := none }
  let s := s.setReg Reg.MCK_CTRL w
  let s := if changed old w 3 2 then s.rateChanged else s
  if !bit old 0 && bit w 0 then s.mckStart
  else if bit old 0 && !bit w 0 then s.mckStop
  else s

/-- A direct write to MCK_CTRL: while the clock runs, a change of RATE applies at the next frame strobe, which R455 calls F,
and MCK_CTRL reads the old one until then (DEDUCED, log entry 38). -/
def State.mckDirect (s : State) (w : Word) : State :=
  let old := s.reg Reg.MCK_CTRL
  if changed old w 3 2 && s.now.isSome && decide (s.mck.st ≠ .off) && bit w 0 then
    let t := s.mckCtrl (setFld w 3 2 (fld old 3 2))
    t.setMck { t.mck with ratePend := some (BitVec.ofNat 2 (fld w 3 2)) }
  else s.mckCtrl w

/-- At a frame strobe, before its transactions: a RATE written directly applies (R455). -/
def State.rateDue (s : State) : State :=
  match s.mck.ratePend with
  | some r => s.mckCtrl (setFld (s.reg Reg.MCK_CTRL) 3 2 r.toNat)
  | none => s

/-! ### The words that a transaction may stage (R534) -/

/-- An accepted write to a word of the EVT, VAL, PUP, MOD, VE, WS, COL and OUT blocks. -/
def State.applyEngine (s : State) (h : RegHit) (a : Nat) (w : Word) : State :=
  let i := h.i
  match h.name with
  | .EVT_HMAP_CTRL => State.candsBegin s (s.hmapCtrl i w)
  | .OUT_SPDIF_RX => State.candsBegin s (s.storeWord h a w)
  | .OUT_TDM_CFG => State.candsBegin s (s.storeWord h a w)
  | .EVT_HMAP_H0 => s.setHm i { s.hm i with wH0 := setHalf (s.hm i).wH0 h.upper w }
  | .EVT_HMAP_E0 => s.setHm i { s.hm i with wE0 := setHalf (s.hm i).wE0 h.upper w }
  | .EVT_HMAP_K => s.setHm i { s.hm i with wK := setHalf (s.hm i).wK h.upper w }
  | .EVT_PARTMAP => s.partmapWrite i w
  | .VAL_PART_OWNER => s.partOwnerWrite i w
  | .MOD_PART_CSEL => s.cselWrite i h.j w
  | .PUP_TASK_CFG => s.taskCfgWrite i w
  | .VE_CTRL => s.veCtrl i w
  | .WS_OWN => s.wsOwnWrite i w
  | _ => s.storeWord h a w

/-- An accepted write to a word of the DAC, MCK, UART, TMR, CHK, PWR and AGE blocks. -/
def State.applyUnits (s : State) (q : Req) (h : RegHit) (a : Nat) (w : Word) : State :=
  let i := h.i
  match h.name with
  | .DAC_CH_CODE => s.dacCode h a w
  | .DAC_CH_PUF => s.dacCode h a w
  | .DAC_CH_STAT => s.dacStatWrite i w
  | .DAC_STROBE => s.dacStrobeFrom 1 (bit w 1) (bit w 0)
  | .MCK_CTRL => s.mckCtrl w
  | .MCK_REF => State.candsBegin s (s.storeWord h a w)
  | .UART_CFG => s.uartCfgWrite i w
  | .UART_CTRL => s.uartCtrlWrite i w
  | .UART_TXD => s.uartSend i w
  | .UART_FHDR => s.uartFhdrWrite i w
  | .TMR_CFG => s.tmrCfg i w
  | .TMR_COUNT => s.tmrWind i w
  | .CHK_CFG => s.chkCfg i w
  | .CHK_CTRL => s.chkCtrl i w
  | .CHK_DIN => s.chkFeed i (h.j + 1) w
  | .CHK_ACFG => s.chkAcfg i w
  | .CHK_AIN => s.chkAlive i w
  | .PWR_REQSET => s.pwrReqset w
  | .PWR_REQCLR => s.pwrReqclr q w
  | .PWR_SAG_CFG => s.sagCfg w
  | .AGE_CTRL => if bit w 31 then (s.storeWord h a w).ageStart else s.storeWord h a w
  | _ => s.storeWord h a w

/-- An accepted write to a word that a transaction may stage. -/
def State.applyCore (s : State) (q : Req) (h : RegHit) (a : Nat) (w : Word) : State :=
  let b := a / 0x10000
  if 0x705 ≤ b ∧ b ≤ 0x70C then s.applyEngine h a w else s.applyUnits q h a w

end Sys2Proof.Machine
end

