-- ==== Sys2Proof/Machine/Trans.lean ====
section
/-! DEFINITION. Node and string words (R253 to R257), and transactions from COMMIT on: their checks (R535) and their
application at a frame strobe (R536 to R538). -/

namespace Sys2Proof.Machine

/-! ### Node and string words -/

/-- The voice slot of a voice node or string word, or the part of a part node word: false and number, true and number. -/
def tableOwner (a : Nat) : Bool × Nat :=
  if a < 0x05400000 then (false, (a - 0x05000000) / 512)
  else if a < 0x05440000 then (true, (a - 0x05400000) / 256)
  else (false, (a - 0x05800000) / 512)

/-- An agent may reach a node or string word (R254 to R256). -/
def State.tableMay (s : State) (agent a : Nat) : Bool :=
  match tableOwner a with
  | (true, p) => decide (s.partOwner p = agent)
  | (false, v) =>
    let x := s.slot v
    (match x.state with
     | .starting => true
     | .active => true
     | .released => true
     | _ => false) && decide (s.partOwner x.part = agent) && !x.sealedPatch

/-- The key of a word's node or string in the list of those counted as undefined (R257). -/
def tableKey (a : Nat) : Nat :=
  if a < 0x05400000 then a % 512 / 32
  else if a < 0x05440000 then a % 256 / 32
  else 16 + a % 512 / 8

/-- An accepted write to a node or string word: it reads back as written, and an undefined encoding found at the next
evaluation is counted afresh (R257). -/
def State.tableWrite (s : State) (a : Nat) (w : Word) : State :=
  let s := s.setWord a w
  match tableOwner a with
  | (true, p) => let x := s.part p; s.setPart p { x with undef := x.undef.filter fun k => decide (k ≠ tableKey a) }
  | (false, v) => let x := s.slot v; s.setSlot v { x with undef := x.undef.filter fun k => decide (k ≠ tableKey a) }

/-! ### Entries -/

/-- One staged entry takes effect (R538), also where the present state would refuse a direct write of it: no check of R535
names that ground (DESIGN CHOICE: log entry 25). -/
def State.applyEntry (q : Req) (s : State) (e : Nat × Word) : State :=
  if tableWord e.1 then s.tableWrite e.1 e.2
  else
    match findReg e.1 with
    | some h => s.applyCore q h e.1 e.2
    | none => s

/-- What the checks of R535 that judge one entry at a time find: rights, encoding, ownership of a bank, a route that the
PV8K1-C lacks. -/
structure EntryFault where
  rights : Bool := false
  enc    : Bool := false
  bank   : Bool := false
  route  : Bool := false
deriving DecidableEq, Repr

/-- The judgement of one entry in the state before it (R535). -/
def State.entryFault (s : State) (q : Req) (e : Nat × Word) : EntryFault :=
  if tableWord e.1 then { rights := !s.tableMay (Req.agent q) e.1 }
  else
    match findReg e.1 with
    | none => { rights := true }
    | some h =>
      let v := s.wordJudge q h e.1 e.2
      let who := v.rest.contains 1 || v.rest.contains 4
      match h.name with
      | .WS_OWN => { enc := v.enc, bank := !(v.rest ++ v.direct).isEmpty }
      | .OUT_MAP_DAC => { enc := v.enc, rights := who, route := !v.direct.isEmpty }
      | .DAC_GCFG => { enc := v.enc, rights := who, route := !v.direct.isEmpty }
      | .DAC_STROBE => { enc := v.enc || !v.direct.isEmpty, rights := who }
      | _ => { enc := v.enc || v.rest.contains 5, rights := who }

/-- The first entries at which the checks of single entries fail, and the state after all entries. -/
structure Scan where
  after  : State
  index  : Nat := 0
  rights : Option Nat := none
  enc    : Option Nat := none
  bank   : Option Nat := none
  route  : Option Nat := none

/-- The first of two findings. -/
def firstAt (found : Option Nat) (bad : Bool) (i : Nat) : Option Nat :=
  match found with
  | some x => some x
  | none => if bad then some i else none

/-- One entry judged and applied. -/
def scanEntry (q : Req) (r : Scan) (e : Nat × Word) : Scan :=
  let f := r.after.entryFault q e
  { after := State.applyEntry q r.after e, index := r.index + 1
    rights := firstAt r.rights f.rights r.index, enc := firstAt r.enc f.enc r.index
    bank := firstAt r.bank f.bank r.index, route := firstAt r.route f.route r.index }

/-- Every entry judged in the state that the entries before it leave (R535). -/
def State.scan (s : State) (q : Req) (es : List (Nat × Word)) : Scan := es.foldl (scanEntry q) { after := s }

/-- The entry that completes a breach: the latest one before which the condition held and after which it does not; 0
where none does. -/
def completes (q : Req) (bad : State → Bool) : List (Nat × Word) → Nat → State → Nat → Nat
  | [], _, _, found => found
  | e :: l, i, s, found =>
    let t := State.applyEntry q s e
    completes q bad l (i + 1) t (if bad t && !bad s then i else found)

/-! ### The checks of R535 -/

/-- Some entry lies in a range of addresses. -/
def touches (es : List (Nat × Word)) (lo hi : Nat) : Bool := es.any fun e => decide (lo ≤ e.1) && decide (e.1 < hi)

/-- The entries touch MCK_CTRL. -/
def touchesClock (es : List (Nat × Word)) : Bool := touches es Reg.MCK_CTRL (Reg.MCK_CTRL + 4)

/-- RATE, or RATE or CTICK, differs between two states. -/
def State.rateMoved (s t : State) : Bool := changed (s.reg Reg.MCK_CTRL) (t.reg Reg.MCK_CTRL) 3 2
def State.clockMoved (s t : State) : Bool := s.rateMoved t || changed (s.reg Reg.MCK_CTRL) (t.reg Reg.MCK_CTRL) 9 8

/-- A as the checks take it: the budget in force, or that of the new rate. -/
def State.checkBudget (s t : State) : Nat := if s.rateMoved t then t.aBudget else s.budget

/-- Check 0x06: the clock plan (R454). -/
def State.clockBad (s : State) (instant : Nat) (t : State) : Bool :=
  s.clockMoved t &&
    (decide (instant % 32 ≠ 0) || (s.rateMoved t && !(t.quotaOk t.aBudget && t.costsOk && t.bclkOk)))

/-- The fixed tasks that the transaction enables: enabled after its entries, and not before them or not after some of them
(R308). -/
def State.newlyOn (s : State) (es : List (Nat × Word)) (t : State) : List Nat :=
  t.enabledTasks.filter fun u => !s.taskEn u || es.any fun e => decide (e.1 = Reg.PUP_TASK_CFG u) && !bit e.2 31

/-- Check 0x07: quotas, the heap quotas and the cost of P1 tasks. -/
def State.quotaBad (s : State) (es : List (Nat × Word)) (t : State) : Bool :=
  let a := s.checkBudget t
  let p1 := sumOf (fun u => if t.taskP1 u then t.costOf (t.taskProg u) else 0) t.enabledTasks
  ((touches es (Reg.VAL_PART_QUOTA 0) (Reg.VAL_PART_QUOTA 1024) || touchesClock es) && !t.quotaOk a) ||
  (touches es Reg.EVT_HEAPQ (Reg.EVT_HEAPQ + 4) && !heapqOk (t.reg Reg.EVT_HEAPQ)) ||
  ((s.newlyOn es t).any t.taskP1 && decide (a < t.minCost + p1))

/-- Check 0x08: the other conditions of R308, and R323. -/
def State.taskBad (s : State) (es : List (Nat × Word)) (t : State) : Bool :=
  let u : State := { t with budget := s.checkBudget t }
  (s.newlyOn es t).any (fun x => !u.enableOk x) ||
  (changed (s.reg Reg.PUP_CTRL) (t.reg Reg.PUP_CTRL) 28 24 && (t.rb Reg.VAL_CTRL 0 || !t.enabledTasks.isEmpty))

/-- Some bus has another RANK in t (R380). -/
def State.ranksMoved (s t : State) : Bool :=
  (List.range 256).any fun b => changed (s.reg (Reg.COL_BUS b)) (t.reg (Reg.COL_BUS b)) 2 0

/-- Check 0x09 on the state after the entries: R379, R380, and R387 for each TDM port that they write. -/
def State.routeBad (s : State) (es : List (Nat × Word)) (t : State) : Bool :=
  let old := s.reg Reg.COL_CTRL
  let new := t.reg Reg.COL_CTRL
  let moves := changed old new 10 8 || changed old new 3 0
  let ranks := moves || (touches es (Reg.COL_BUS 0) (Reg.COL_BUS 256) && s.ranksMoved t)
  (moves && t.rb Reg.PUP_CTRL 0) || (ranks && !(t.ranksOk && t.stagesOk)) ||
  (List.range 4).any fun n =>
    (es.any fun e => decide (e.1 = Reg.OUT_TDM_CFG n)) && bclkBad t.fs (t.reg (Reg.OUT_TDM_CFG n))

/-- The first failure of the checks 0x03 to 0x09: code and index. -/
def State.txnCheck (s : State) (q : Req) (es : List (Nat × Word)) (instant : Nat) : Option (Nat × Nat) :=
  let r := s.scan q es
  let t := r.after
  let breach (code : Nat) (bad : State → Bool) : Option (Nat × Nat) :=
    if bad t then some (code, completes q bad es 0 s 0) else none
  match r.rights, r.enc, r.bank with
  | some i, _, _ => some (3, i)
  | none, some i, _ => some (4, i)
  | none, none, some i => some (5, i)
  | none, none, none =>
    ((breach 6 (s.clockBad instant)).orElse fun _ => breach 7 (s.quotaBad es)).orElse fun _ =>
      (breach 8 (s.taskBad es)).orElse fun _ =>
        match r.route with
        | some i => some (9, i)
        | none => breach 9 (s.routeBad es)

/-- TIME of a COMMIT: none for "the first strobe after the checks" (R536). -/
def txnTime (raw : Dword) : Option Nat := if raw.toNat = 2 ^ 64 - 1 then none else some raw.toNat

/-- Check 0x02 on TIME (R535). -/
def State.timeBad (s : State) : Option Nat → Bool
  | none => false
  | some t => decide (t % 256 ≠ 0) || decide (s.evtNow + 2 ^ 31 < t)

/-- The checks at COMMIT: the first failure, code 0 when there is none (R535). -/
def State.commitCheck (s : State) (i : Nat) (time : Option Nat) : Nat × Nat :=
  let x := s.txn i
  if x.ovf then (1, 0)
  else if s.timeBad time then (2, 0)
  else
    let next := match s.now with
      | some f => f + 1
      | none => 0
    (s.txnCheck (reqOf i) x.entries ((time.map (· / 256)).getD next)).getD (0, 0)

/-- COMMIT: CHECKING, with what the checks find (R531, R535). -/
def State.txnCommit (s : State) (i : Nat) (raw : Dword) (ring : Option Nat) : State :=
  let x := s.txn i
  let time := txnTime raw
  let r := s.commitCheck i time
  let t := s.setTxn i { x with
    st := .checking, time := time, commitSeq := s.commitSeq, found := r, ring := ring }
  { t with commitSeq := s.commitSeq + 1 }

/-- The checks end (R531, R532). -/
def State.txnCheckEnd (s : State) (i : Nat) : State :=
  let x := s.txn i
  if x.st = .checking then
    if x.found.1 = 0 then s.setTxn i { x with st := .pending, ring := none }
    else (s.setTxn i { x with st := .failed, ring := none, errCode := x.found.1, errIndex := x.found.2 }).txnNotify i
  else s

/-! ### Applying (R536 to R538) -/

/-- Inserts by the order of the COMMIT accesses. -/
def insertTxn (e : Nat × Txn) : List (Nat × Txn) → List (Nat × Txn)
  | [] => [e]
  | x :: l => if e.2.commitSeq < x.2.commitSeq then e :: x :: l else x :: insertTxn e l

/-- The pending transactions due at the strobe of frame f, in the order of their COMMITs (R537). -/
def State.dueTxns (s : State) (f : Nat) : List (Nat × Txn) :=
  (s.txns.filter fun e => decide (e.2.st = .pending) && decide ((e.2.time.map (· / 256)).getD 0 ≤ f)).foldr insertTxn []

/-- Every entry of a transaction takes effect at one instant: the deglitcher meets the converters as all of them leave them
(R434, R538). -/
def State.applyEntries (s : State) (q : Req) (es : List (Nat × Word)) : State :=
  (es.foldl (State.applyEntry q) s).dacSourceChanged s.dacSources

/-- One due transaction is checked again and applied whole, or fails (R537, R538). -/
def State.applyTxn (f : Nat) (s : State) (e : Nat × Txn) : State :=
  let i := e.1
  let x := e.2
  match s.txnCheck (reqOf i) x.entries ((x.time.map (· / 256)).getD f) with
  | some (code, k) =>
    (s.setTxn i { x with st := .failed, errCode := code, errIndex := k, errApply := true }).txnNotify i
  | none =>
    let late := match x.time with
      | some t => decide (t / 256 < f)
      | none => false
    let s := s.applyEntries (reqOf i) x.entries
    let s := (s.setTxn i { x with st := .applied, late := late }).txnNotify i
    if late then s.det 5 else s

/-- Every transaction due at the strobe of frame f (R537). -/
def State.applyTxns (s : State) (f : Nat) : State := (s.dueTxns f).foldl (State.applyTxn f) s

end Sys2Proof.Machine
end

