-- ==== Sys2Proof/Machine/Ring.lean ====
section
/-! DEFINITION. The ring pairs of the host ports: doorbells, fetches, completions and stops (R484 to R492), the check of
a descriptor (R523), and the completion it gets (R520). -/

namespace Sys2Proof.Machine

/-! ### Indices (R484) -/

/-- N of ring r. -/
def State.ringN (s : State) (p r : Nat) : Nat := 2 ^ s.rf (Reg.HPx_RING_CFG p r) 3 0

/-- Steps from index a up to index b, modulo N. -/
def ringDist (n a b : Nat) : Nat := (b + n - a % n) % n

/-- The ring is enabled and has not stopped. -/
def State.ringLive (s : State) (p r : Nat) : Bool :=
  s.rb (Reg.HPx_RING_CFG p r) 31 && !s.rb (Reg.HPx_RING_STAT p r) 31

/-- The port can issue memory requests: its link is up, it is in D0, and Bus Master Enable is set (R501; log entry 33). -/
def State.portSends (s : State) (p : Nat) : Bool :=
  let h := s.port p
  h.link.up && !h.d3hot && h.busMaster

/-- Completion slots that the host has consumed (R488). -/
def State.cplFree (s : State) (p r : Nat) : Nat :=
  let n := s.ringN p r
  n - 1 - ringDist n (s.rf (Reg.HPx_CPL_DB p r) 11 0) (s.rf (Reg.HPx_CPL_TAIL p r) 11 0)

/-! ### Stops and enables (R490, R491, R525) -/

/-- The command of ring r that awaits the end of a check is discarded: it has no effect, so its transaction is open
again (R525). -/
def State.dropBusy (s : State) (p r : Nat) : State :=
  let g := s.ring p r
  if g.busy.isNone then s
  else
    let s := s.setRing p r { g with busy := none }
    let x := s.txn p
    if x.st = .checking ∧ x.ring = some r then
      s.setTxn p { x with st := .opened, time := none, ring := none, found := (0, 0) }
    else s

/-- Ring r stops with a cause code; what it has fetched and not completed is discarded (R491, R525). -/
def State.ringStop (s : State) (p r cause : Nat) : State :=
  let s := s.dropBusy p r
  let s := s.setReg (Reg.HPx_RING_STAT p r) (onebit 31 ||| BitVec.ofNat 32 cause)
  let s := s.setRing p r { s.ring p r with fetched := [] }
  s.cause p 4

/-- An accepted write to HPx_RING_CFG[r]: one of EN = 1 sets every index of the pair and E to 0 (R490, R523); EN from 0 to
1 also starts a stopped ring again (R491). -/
def State.ringCfgWrite (s : State) (p r : Nat) (w : Word) : State :=
  let was := s.rb (Reg.HPx_RING_CFG p r) 31
  let s := s.setReg (Reg.HPx_RING_CFG p r) w
  if bit w 31 then
    let s := s.dropBusy p r
    let s := (if was then s else s.setReg (Reg.HPx_RING_STAT p r) 0).setReg (Reg.HPx_RING_DB p r) 0
    let s := (s.setReg (Reg.HPx_RING_HEAD p r) 0).setReg (Reg.HPx_CPL_DB p r) 0
    (s.setReg (Reg.HPx_CPL_TAIL p r) 0).setRing p r {}
  else s

/-- Slots from HEAD up to TAIL: those that are posted and not taken (R485, R492). -/
def State.posted? (s : State) (p r : Nat) : Nat :=
  ringDist (s.ringN p r) (s.rf (Reg.HPx_RING_HEAD p r) 11 0) (s.rf (Reg.HPx_RING_DB p r) 11 0)

/-- What is fetched beyond TAIL is forgotten: those slots are not posted (R492). -/
def State.ringTrim (s : State) (p r : Nat) : State :=
  let g := s.ring p r
  let n := s.posted? p r
  if g.fetched.length ≤ n then s
  else s.setRing p r { g with fetched := g.fetched.take n, fetchAt := s.rf (Reg.HPx_RING_DB p r) 11 0 }

/-- A doorbell (R484, R491). It brings the link back to L0 (R500). -/
def State.ringDoorbell (s : State) (p r : Nat) (w : Word) : State :=
  let s := s.setPort p (s.port p).wake
  if s.ringN p r ≤ fld w 11 0 then
    if s.rb (Reg.HPx_RING_STAT p r) 31 then s else s.ringStop p r 2
  else (s.setReg (Reg.HPx_RING_DB p r) w).ringTrim p r

/-! ### Fetches (R486, R488) -/

/-- The most slots that the device asks for in one read now, of those from HEAD up to TAIL (R485, R492). -/
def State.fetchRoom (s : State) (p r : Nat) : Nat :=
  let n := s.ringN p r
  let g := s.ring p r
  let ahead := ringDist n (s.rf (Reg.HPx_RING_HEAD p r) 11 0) g.fetchAt
  min (min (s.posted? p r - ahead) (n - g.fetchAt)) (min (min 8 ((s.port p).maxRead / 64)) (8 - ahead))

/-- Slots with their indices, from `at_` on. -/
def numbered : Nat → List (List Byte) → List (Nat × List Byte)
  | _, [] => []
  | i, d :: l => (i, d) :: numbered (i + 1) l

/-- A descriptor read of ring r is outstanding: the device issues one as soon as there is something to fetch. -/
def State.fetching (s : State) (p r : Nat) : Bool := s.ringLive p r && s.portSends p && decide (0 < s.fetchRoom p r)

/-- A completion of ring r can be written. -/
def State.completing (s : State) (p r : Nat) : Bool :=
  !(s.ring p r).done.isEmpty && s.portSends p && decide (0 < s.cplFree p r)

/-- A descriptor read of ring r ends: the slots it brings, or the error that stops the ring. Where the device has no such read
under way, or one that cannot time out, nothing happens. -/
def State.ringFetch (s : State) (p r : Nat) (res : FetchResult) : State :=
  let room := s.fetchRoom p r
  if s.fetching p r then
    match res with
    | .error how =>
      if how = .timeout ∧ (s.port p).timesOut = false then s else (s.fetchError p how).ringStop p r 1
    | .slots d =>
      if 1 ≤ d.length ∧ d.length ≤ room then
        let g := s.ring p r
        s.setRing p r { g with
          fetched := g.fetched ++ numbered g.fetchAt d, fetchAt := (g.fetchAt + d.length) % s.ringN p r }
      else s
  else s

/-! ### Completions (R487, R520) -/

/-- The 64 bytes of a completion of descriptor `d`. -/
def completionBytes (d : List Byte) (slot status detail data : Nat) : List Byte :=
  let head := d.take 3 ++ toLE status 1 ++ slice d 4 4 ++ toLE slot 2 ++ toLE detail 2 ++ toLE data 4 ++
    List.replicate 44 0
  head ++ toLE (crc32c head).toNat 4

/-- A command completes: its completion waits to be written. -/
def State.complete (s : State) (p r : Nat) (d : List Byte) (slot status detail data : Nat) : State :=
  let g := s.ring p r
  s.setRing p r { g with done := g.done ++ [completionBytes d slot status detail data] }

/-- The oldest waiting completion is written, then the new tail, then the ring's vector is signalled (R487). -/
def State.completionWrite (s : State) (p r : Nat) : State :=
  let g := s.ring p r
  match g.done with
  | [] => s
  | c :: rest =>
    if s.completing p r then
      let tail := s.rf (Reg.HPx_CPL_TAIL p r) 11 0
      let next := (tail + 1) % s.ringN p r
      let s := s.setRing p r { g with done := rest }
      let s := s.send p (.write ((s.reg64 (Reg.HPx_CPL_BASE p r)).toNat + 64 * tail) c)
      let s := s.setReg (Reg.HPx_CPL_TAIL p r) (BitVec.ofNat 32 next)
      let s := s.send p (.write (s.reg64 (Reg.HPx_CPL_SHADOW p r)).toNat (toLE next 8))
      s.cause p r
    else s

/-- ABORT, by whatever path. A ring's TXN_COMMIT whose check it ends completes with TXNSTATE and the state IDLE: none of its
effect has come about (R519, R525, R531; DEDUCED: log entry 21). -/
def State.txnAbandon (s : State) (i : Nat) : State :=
  let t := s.txnAbort i
  match (s.txn i).ring with
  | none => t
  | some r =>
    match (t.ring i r).busy with
    | none => t
    | some (slot, d) => (t.setRing i r { t.ring i r with busy := none }).complete i r d slot 5 0 0

/-! ### Taking a command (R523) -/

/-- What the execution of a command yields. -/
inductive CmdOut where
  /-- It has acted: STATUS, DETAIL, DATA. -/
  | done (status detail data : Nat)
  /-- It waits, and every later slot with it (R485). -/
  | hold
  /-- It completes when a check ends. -/
  | busy

/-- The bytes after the first `n` of the payload are zero (R514). -/
def restZero (d : List Byte) (n : Nat) : Bool := ((d.drop (8 + n)).take (52 - n)).all fun b => decide (b = 0)

/-- CODE of a descriptor. -/
def codeOf (d : List Byte) : Nat := leField d 2 1

/-- COUNT of a descriptor. -/
def countOf (d : List Byte) : Nat := leField d 3 1

/-- Ring r executes commands: it is live, its port is in D0, no command of it is under way, and a completion slot is
free for what it completes (R488, R501). -/
def State.ringTakes (s : State) (p r : Nat) : Bool :=
  let g := s.ring p r
  s.ringLive p r && !(s.port p).d3hot && g.busy.isNone && decide (g.done.length < s.cplFree p r)

/-- The oldest fetched command of ring r, whose CODE `mine` accepts, is checked and executed by `run` (R523). -/
def State.ringRun (s : State) (p r : Nat) (mine : Nat → Bool) (run : List Byte → State → State × CmdOut) : State :=
  let g := s.ring p r
  match g.fetched with
  | [] => s
  | (slot, d) :: rest =>
    if s.ringTakes p r && mine (codeOf d) then
      let alive := leField d 0 2
      let e := g.alive.toNat
      let t := (s.setRing p r { g with fetched := rest }).setReg (Reg.HPx_RING_HEAD p r)
        (BitVec.ofNat 32 ((slot + 1) % s.ringN p r))
      if leField d 60 4 ≠ (crc32c (d.take 60)).toNat then
        (t.complete p r d slot 0x80 0 (crc32c (d.take 60)).toNat).ringStop p r 0x11
      else if alive = e then
        match run d (t.setRing p r { t.ring p r with alive := g.alive + 1 }) with
        | (u, .done status detail data) => u.complete p r d slot status detail data
        | (_, .hold) => s
        | (u, .busy) => u.setRing p r { u.ring p r with busy := some (slot, d) }
      else if alive = (e + 65535) % 65536 then t.complete p r d slot 1 0 0
      else (t.complete p r d slot 0x81 0 e).ringStop p r 0x12
    else s

end Sys2Proof.Machine
end

