-- ==== Sys2Proof/Machine/Apply.lean ====
section
/-! DEFINITION. What an accepted direct write does in the blocks that no transaction may stage (R534): SYS, HPA, HPB, SEM,
TXN, SEC, NVM and STG; and `applyWord`, the accepted write of any register word. -/

namespace Sys2Proof.Machine

/-- A write to HPx_SEDB: a Stage Engine rings its bit, the host clears (R496). -/
def State.sedbWrite (s : State) (q : Req) (p : Nat) (w : Word) : State :=
  let a := Reg.HPx_SEDB p
  if Req.ix q < 2 then s.setReg a (s.reg a &&& ~~~ w)
  else
    let e := Req.ix q - 2
    if bit w e then (s.orReg a (onebit e)).cause p 24 else s

/-- A write to HPx_IRQ_EN: a vector enabled while its cause is set is signalled (R494). -/
def State.irqEnable (s : State) (p : Nat) (w : Word) : State :=
  let rising := w &&& ~~~ s.reg (Reg.HPx_IRQ_EN p) &&& s.reg (Reg.HPx_IRQ_STAT p)
  iter (fun v t => if bit rising v then t.signal p v else t) 0 26 (s.setReg (Reg.HPx_IRQ_EN p) w)

/-- A write to a word of the MSI-X table: a vector whose mask is taken away sends what it holds pending (R494, R495). -/
def State.msixTableWrite (s : State) (h : RegHit) (a : Nat) (w : Word) : State :=
  (s.setReg a (if h.j % 4 = 3 then w &&& 1 else w)).flushVectors h.i

/-- A write to HPx_IRQ_STAT: a cause cleared satisfies its event, so its vector is held pending no more (R494). -/
def State.irqStatWrite (s : State) (h : RegHit) (a : Nat) (w : Word) : State :=
  let t := s.storeWord h a w
  t.setPort h.i { t.port h.i with pendVec := (t.port h.i).pendVec &&& ~~~ w }

/-- An accepted write to a port's block. -/
def State.applyHp (s : State) (q : Req) (h : RegHit) (a : Nat) (w : Word) : State :=
  match h.name with
  | .HPx_SEDB => s.sedbWrite q h.i w
  | .HPx_IRQ_STAT => s.irqStatWrite h a w
  | .HPx_IRQ_EN => s.irqEnable h.i w
  | .HPx_RING_CFG => s.ringCfgWrite h.i h.j w
  | .HPx_RING_DB => s.ringDoorbell h.i h.j w
  | .MSIX_TABLE => s.msixTableWrite h a w
  | _ => s.storeWord h a w

/-- An accepted write to TXN_CTRL[i] (R531). -/
def State.txnCtrl (s : State) (i : Nat) (w : Word) : State :=
  if bit w 0 then s.txnOpen i
  else if bit w 1 then s.txnCommit i (s.reg64 (Reg.TXN_TIME i)) none
  else if bit w 2 then s.txnAbandon i
  else s

/-- An accepted write to the SEM and TXN blocks (R529, R531, R533). -/
def State.applyShared (s : State) (h : RegHit) (a : Nat) (w : Word) : State :=
  match h.name with
  | .SEM_REL => if bit w 0 then s.semFree h.i else s
  | .TXN_CTRL => s.txnCtrl h.i w
  | .TXN_SDATA => if h.upper then s.stage h.i w.toNat (s.reg (Reg.TXN_SDATA h.i)) else s.setReg a w
  | _ => s.storeWord h a w

/-- An accepted write to the SEC and NVM blocks. -/
def State.applySecure (s : State) (q : Req) (h : RegHit) (a : Nat) (w : Word) : State :=
  match h.name with
  | .SEC_MKH_STG => { s with hidden := tput 0 s.hidden a w }
  | .SEC_DBG_RESP => { s with hidden := tput 0 s.hidden a w }
  | .SEC_FUSE_CTRL => s.fuseStart w
  | .SEC_SEAL_REQ => if bit w 31 then s.sealStart q (fld w 3 0) else s
  | .SEC_DBG_CTRL => s.dbgCtrl h.i w
  | .SEC_ATT_CTRL => if bit w 0 then s.attestGo h.i else s
  | .NVM_CMD => s.nvmCmd q w
  | _ => s.storeWord h a w

/-- An accepted write to the STG block. -/
def State.applyStg (s : State) (q : Req) (h : RegHit) (a : Nat) (w : Word) : State :=
  match h.name with
  | .STG_CTRL => s.stgCtrl q h.i w
  | .STG_DOORBELL => s.stgRing q h.i w
  | .STG_SENDGO => s.stgSend h.i (bit w 0)
  | .STG_SVC_POP => if bit w 0 then s.stgPop h.i else s
  | _ => s.storeWord h a w

/-- An accepted direct write of a word of the DAC block: the sources that it changes, which a load strobe never does, pass
through the deglitcher (R433, R434). -/
def State.applyDac (s : State) (q : Req) (h : RegHit) (a : Nat) (w : Word) : State :=
  match h.name with
  | .DAC_STROBE => s.applyCore q h a w
  | _ => (s.applyCore q h a w).dacSourceChanged s.dacSources

/-- An accepted direct write of a register word. -/
def State.applyWord (s : State) (q : Req) (h : RegHit) (a : Nat) (w : Word) : State :=
  match a / 0x10000 with
  | 0x700 => s.storeWord h a w
  | 0x701 => s.applyHp q h a w
  | 0x702 => s.applyHp q h a w
  | 0x703 => s.applyShared h a w
  | 0x704 => s.applyShared h a w
  | 0x712 => s.applySecure q h a w
  | 0x713 => s.applySecure q h a w
  | 0x716 => s.applyStg q h a w
  | 0x70D => s.applyDac q h a w
  | 0x70E =>
    match h.name with
    | .MCK_CTRL => s.mckDirect w
    | _ => s.applyCore q h a w
  | _ => s.applyCore q h a w

end Sys2Proof.Machine
end

