-- ==== Sys2Proof/Machine/Access.lean ====
section
/-! DEFINITION. Accesses by requesters: register words (R509 to R513), device memory (R480, R481), the split of a memory
request, refused accesses and their record (R497), the register arbiter (R505 to R507), and requests that stall. -/

namespace Sys2Proof.Machine

/-! ### Register words -/

/-- The address lies in the register blocks (R7). -/
def isCsr (a : Nat) : Bool := decide (0x07000000 ≤ a) && decide (a < 0x07200000)

/-- The lower word of a wide register or of a string stands at the address (R253, R509). -/
def wideAt (a : Nat) : Bool :=
  match findReg a with
  | some h => h.wide && !h.upper
  | none => tableWord a && decide (0x05800000 ≤ a) && decide (a % 8 = 0)

/-- Registers answer a read only once start-up has reached step 7, but for two of them (R619). -/
def State.readable (s : State) (h : RegHit) : Bool := s.ready || earlyWritable h.name

/-- A read of the word at `b` in full, or of some of its lanes: value, cause of refusal, state after (R509, R511, R512). -/
def State.regReadWord (s : State) (q : Req) (b : Nat) (narrow : Bool) : Word × Nat × State :=
  match findReg b with
  | none => (0, 0, s)
  | some h =>
    if narrow = true ∧ h.name = .SEM_TRY then (0, 2, s)
    else if readCause q h ≠ 0 then (0, readCause q h, s)
    else if s.readable h then let r := s.readWord q h b; (r.1, 0, r.2)
    else (0, 0, s)

/-- An atomic read of a wide register (R509). -/
def State.regReadWide (s : State) (q : Req) (a : Nat) : Dword :=
  match findReg a with
  | some h => if s.readable h then s.readWide q h a else 0
  | none => 0

/-- A full write of the word at `a`: cause of refusal, 0 when accepted, and the state after. -/
def State.regWriteWord (s : State) (q : Req) (a : Nat) (w : Word) : Nat × State :=
  match findReg a with
  | none => (3, s)
  | some h =>
    let c := s.directCause q h a w
    if c = 0 then (0, s.applyWord q h a w)
    else if c = 5 ∧ h.name = .TXN_SDATA then (c, s.setTxn h.i { s.txn h.i with ovf := true })
    else (c, s)

/-- An atomic write of a wide register: refused as a whole, or both words are written, the lower first (R509). -/
def State.regWriteWide (s : State) (q : Req) (a : Nat) (v : Dword) : Nat × State :=
  match findReg a with
  | none => (3, s)
  | some h =>
    let u : RegHit := { h with upper := true }
    let lo : Word := v.setWidth 32
    let hi : Word := (v >>> 32).setWidth 32
    let c := firstCause [s.directCause q h a lo, s.directCause q u (a + 4) hi]
    if c = 0 then (0, (s.applyWord q h a lo).applyWord q u (a + 4) hi)
    else if c = 5 ∧ h.name = .TXN_SDATA then (c, s.setTxn h.i { s.txn h.i with ovf := true })
    else (c, s)

/-! ### The record of refused accesses (R497) -/

/-- Host p's refused access is recorded, counted, and sets the cause of vector 5. -/
def State.recordFault (s : State) (p : Nat) (write bar2 : Bool) (a cause : Nat) : State :=
  let r := Reg.HPx_AFLT p
  let w := setFld (setFld (s.reg r &&& onebit 30) 31 31 1) 29 29 (b2n write)
  let w := setFld (setFld w 28 28 (b2n bar2)) 27 24 cause
  let s := if s.rb r 31 then s.orReg r (onebit 30)
    else (s.setReg r w).setReg (Reg.HPx_AFLT_ADDR p) (BitVec.ofNat 32 a)
  (s.count (Reg.HPx_CNT_AFLT p)).cause p 5

/-- A refusal with a cause: a host's is recorded; a Stage Engine's is the address fault of its own bundle (R159). -/
def State.refuse (s : State) (q : Req) (write bar2 : Bool) (a cause : Nat) : State :=
  if cause ≠ 0 ∧ Req.ix q < 2 then s.recordFault (Req.ix q) write bar2 a cause else s

/-! ### Device memory (R480) -/

/-- The ranges of the device map as a requester reaches them (R7). -/
inductive DevRange where
  | wave
  /-- Memories behind the debug lock: local, instruction and Stage Engine memory. -/
  | locked
  | program
  | table
  | regs
  | nvm
  | nothing
deriving DecidableEq, Repr

/-- The range of an address. -/
def regionOf (a : Nat) : DevRange :=
  if a < 0x04000000 then .wave
  else if a < 0x04A00000 then .locked
  else if a < 0x04B00000 then .program
  else if tableWord a then .table
  else if 0x06000000 ≤ a ∧ a < 0x06080000 then .locked
  else if isCsr a then .regs
  else if nvmBase ≤ a ∧ a < nvmBase + 0x80000 then .nvm
  else .nothing

/-- Enabled bytes of one access: their addresses, rising, and what a write carries. -/
abbrev Lanes := List (Nat × Byte)

/-- Bytes of an access stored. -/
def State.putLanes (s : State) (g : Lanes) : State := g.foldl (fun t e => t.setByte e.1 e.2) s

/-- A byte of non-volatile memory as the read window shows it: the ID record and the reserved offsets read zero (R628). -/
def State.nvmSeen (s : State) (a : Nat) : Byte :=
  let o := a - nvmBase
  if (0x800 ≤ o ∧ o < 0xC00) ∨ (0x1400 ≤ o ∧ o < 0x2000) then 0 else s.byte a

/-- An access to a Voice Engine's or Stage Engine's memory, the Program Store or a fabric table ends SLEEP (R614). -/
def State.wakeFor (s : State) (a : Nat) : State :=
  match regionOf a with
  | .locked => s.sleepEnd
  | .program => s.sleepEnd
  | .table => s.sleepEnd
  | _ => s

/-- A read of device memory: the bytes, the cause recorded, the state after (R340, R359, R167, R403, R254, R480). -/
def State.memRead (s : State) (q : Req) (g : Lanes) : List Byte × Nat × State :=
  let a := (g.headD (0, 0)).1
  let zeros := g.map fun _ => (0 : Byte)
  let plain := g.map fun e => s.byte e.1
  match regionOf a with
  | .wave =>
    (match s.wsJudgeRead (Req.agent q) (bankOf a) with
     | .ok => (plain, 0, s.wsCount (bankOf a) 1)
     | .zero => (zeros, 0, s)
     | .refused c => (zeros, c, s.wsRefuse (bankOf a)))
  | .locked => (if s.lockOpen (Req.ix q) then plain else zeros, 0, s)
  | .program => (zeros, 1, s)
  | .table => (if s.tableMay (Req.agent q) a then plain else zeros, 0, s)
  | .nvm => (g.map fun e => s.nvmSeen e.1, 0, s)
  | .regs => (zeros, 0, s)
  | .nothing => (zeros, 0, s)

/-- A write to a node or string table: its width first, then the write sets, whose cause R534 names for any requester, then
its rights (R509, R534, R254). -/
def State.tableStore (s : State) (q : Req) (g : Lanes) : Nat × State :=
  let a := (g.headD (0, 0)).1
  let lo : Word := BitVec.ofNat 32 (leNat (g.map (·.2)))
  let hi : Word := BitVec.ofNat 32 (leNat ((g.drop 4).map (·.2)))
  if g.length ≠ 4 ∧ g.length ≠ 8 then (2, s)
  else if s.inWriteSet none a ∨ (g.length = 8 ∧ s.inWriteSet none (a + 4) = true) then (6, s)
  else if s.tableMay (Req.agent q) a = false then (1, s)
  else (0, let t := s.tableWrite a lo; if g.length = 8 then t.tableWrite (a + 4) hi else t)

/-- A write to device memory: the cause of its refusal, 0 when it is made, and the state after. Through BAR2 the register
blocks are refused with cause 1 (R480, R673), and what belongs to no block with cause 3 (R652). -/
def State.memWrite (s : State) (q : Req) (g : Lanes) : Nat × State :=
  let a := (g.headD (0, 0)).1
  match regionOf a with
  | .wave =>
    (match s.wsJudgeWrite (Req.agent q) (bankOf a) with
     | .ok => (0, (s.putLanes g).wsCount (bankOf a) 1)
     | .zero => (0, s)
     | .refused c => (c, if c = 1 then s.wsRefuse (bankOf a) else s))
  | .locked => if s.lockOpen (Req.ix q) then (0, s.putLanes g) else (4, s)
  | .table => s.tableStore q g
  | .program => (1, s)
  | .regs => (if 0x07170000 ≤ a then 3 else 1, s)
  | .nvm => (1, s)
  | .nothing => (3, s)

/-! ### Splitting a request (R481, R509, R513) -/

/-- The enabled lanes of a request that starts at address `a`. -/
def enabledFrom : Nat → List (Option Byte) → Lanes
  | _, [] => []
  | a, some b :: l => (a, b) :: enabledFrom (a + 1) l
  | a, none :: l => enabledFrom (a + 1) l

/-- Consecutive lanes that share an aligned unit of `k` bytes. -/
def groupBy (k : Nat) : Lanes → List Lanes
  | [] => []
  | e :: l =>
    match groupBy k l with
    | (x :: g) :: gs => if x.1 / k = e.1 / k then (e :: x :: g) :: gs else [e] :: (x :: g) :: gs
    | gs => [e] :: gs

/-- The accesses of the lanes of one 8-byte unit: one for a wide register or a string word with all enables set and for
plain memory; otherwise one for each 32-bit word. `regs`: the path reaches the registers. -/
def unitAccesses (regs : Bool) (g : Lanes) : List Lanes :=
  let a := (g.headD (0, 0)).1
  let full := decide (g.length = 8)
  if (isCsr a && regs) || tableWord a then (if full && wideAt a then [g] else groupBy 4 g) else [g]

/-- The device accesses of a request, in ascending address order (R481). -/
def accessesOf (regs : Bool) (g : Lanes) : List Lanes := (groupBy 8 g).flatMap (unitAccesses regs)

/-- One device access that reads. -/
def State.readAccess (s : State) (q : Req) (regs : Bool) (g : Lanes) : List Byte × Nat × State :=
  let a := (g.headD (0, 0)).1
  if isCsr a && regs then
    if g.length = 8 then (toLE (s.regReadWide q a).toNat 8, 0, s)
    else
      let r := s.regReadWord q (a / 4 * 4) (decide (g.length < 4))
      (g.map fun e => (r.1 >>> (8 * (e.1 % 4))).setWidth 8, r.2.1, r.2.2)
  else (s.wakeFor a).memRead q g

/-- One device access that writes. -/
def State.writeAccess (s : State) (q : Req) (regs : Bool) (g : Lanes) : Nat × State :=
  let a := (g.headD (0, 0)).1
  let v := leNat (g.map (·.2))
  if isCsr a && regs then
    if g.length = 8 then s.regWriteWide q a (BitVec.ofNat 64 v)
    else if g.length = 4 then s.regWriteWord q a (BitVec.ofNat 32 v)
    else (if (findReg (a / 4 * 4)).isNone then 3 else 2, s)
  else (s.wakeFor a).memWrite q g

/-- The lanes of an access of `size` bytes. -/
def lanesOf (a size : Nat) (v : Nat) : Lanes :=
  (List.range size).map fun i => (a + i, BitVec.ofNat 8 (v / 2 ^ (8 * i)))

/-- A register or table word stands at the address, aligned down. -/
def holdsWord (a : Nat) : Bool := (findReg (a / 4 * 4)).isSome || tableWord a

/-! ### One access -/

/-- One device access: whose, its direction, whether its path reaches the registers, whether a record names BAR2, and
whether its width does not divide its address. -/
structure Access1 where
  req   : Req
  write : Bool
  regs  : Bool := true
  bar2  : Bool := false
  askew : Bool := false
  lanes : Lanes

/-- The address of its first enabled byte. -/
def Access1.addr (m : Access1) : Nat := (m.lanes.headD (0, 0)).1

/-- The access passes through the register arbiter: a register, node or string word (R505, R508). -/
def Access1.arbitrated (m : Access1) : Bool := (isCsr m.addr && m.regs) || tableWord m.addr

/-- What an access leaves: the state, the bytes it read, the cause of its refusal. -/
structure Made where
  state : State
  bytes : List Byte := []
  cause : Nat := 0

/-- One access is made, and recorded where it is refused (R497, R509). -/
def State.access (s : State) (m : Access1) : Made :=
  if m.askew then
    if holdsWord m.addr then
      { state := s.refuse m.req m.write m.bar2 m.addr 2, bytes := if m.write then [] else m.lanes.map fun _ => 0, cause := 2 }
    else if m.write then { state := s.refuse m.req true m.bar2 m.addr 3, cause := 3 }
    else { state := s, bytes := m.lanes.map fun _ => 0 }
  else if m.write then
    let x := s.writeAccess m.req m.regs m.lanes
    { state := x.2.refuse m.req true m.bar2 m.addr x.1, cause := x.1 }
  else
    let x := s.readAccess m.req m.regs m.lanes
    { state := x.2.2.refuse m.req false m.bar2 m.addr x.2.1, bytes := x.1, cause := x.2.1 }

/-! ### The arbiter (R505 to R507) -/

/-- Where a requester stands in the order that starts after `last`. -/
def arbRank (last : Option Req) (q : Req) : Nat :=
  match last with
  | none => Req.ix q
  | some l => (Req.ix q + 3 - Req.ix l) % 4

/-- Inserts an access by its rank. -/
def insertAccess (last : Option Req) (w : Access1) : List Access1 → List Access1
  | [] => [w]
  | x :: l => if arbRank last w.req < arbRank last x.req then w :: x :: l else x :: insertAccess last w l

/-- The words that an access covers, with the bytes it carries for them. -/
def Access1.words (m : Access1) : List (Nat × Word) :=
  (groupBy 4 m.lanes).map fun g => ((g.headD (0, 0)).1, BitVec.ofNat 32 (leNat (g.map (·.2))))

/-- A slot under way: the state before it and now, the accesses ordered so far, the words that accepted writes among them
have written with an effect, by requester, and the answers. -/
structure Slotted where
  before  : State
  state   : State
  past    : List Access1 := []
  made    : List (Req × List (Nat × Word)) := []
  answers : List SlotAnswer := []

/-- The bits `m` of the word at `a` that earlier accesses of the slot set, seen from a state in which they are clear
(R15). -/
def Slotted.late (r : Slotted) (a : Nat) (m : Word) : Word :=
  if m = 0 then 0
  else (r.past.foldl (fun t x => (t.access x).state) (r.before.setReg a (r.before.reg a &&& ~~~ m))).reg a &&& m

/-- Bits of one access code at the word at `a`. -/
def codeBits (a : Nat) (c : Access) : Word :=
  match findReg a with
  | some h => h.bitsOf c
  | none => 0

/-- Sets again what the hardware set in the slot of the clear; an interrupt cause is signalled again (R15, R494). -/
def State.setAgain (s : State) (a : Nat) (m : Word) : State :=
  if m = 0 then s
  else if a = Reg.HPx_IRQ_STAT 0 then iter (fun v t => if bit m v then t.cause 0 v else t) 0 26 s
  else if a = Reg.HPx_IRQ_STAT 1 then iter (fun v t => if bit m v then t.cause 1 v else t) 0 26 s
  else s.orReg a m

/-- An owner field that holds none and is written none: the write has no effect (R103). -/
def State.noneToNone (s : State) (a hi lo : Nat) (w : Word) : Bool :=
  decide (fld (s.reg a) hi lo = 0) && decide (fld w hi lo = 0)

/-- An accepted write of `w` to the word takes effect in state s (R507): not every field of it is read-only, cleared by
reads or latched (R14), and no rule leaves the write without effect (R103, R437, R444, R580). -/
def State.takesEffect (s : State) (a : Nat) (w : Word) : Bool :=
  tableWord a ||
  ((findReg a).map fun h =>
    ([Access.rw, .w1c, .w1s, .wo].any fun c => decide (codeBits a c ≠ 0)) &&
    (match h.name with
     | .DAC_CH_PUF => decide (s.variant = .f)
     | .DAC_CH_STAT => !(decide (w &&& 0xE = 8) && decide (s.rf a 5 4 ≠ 0))
     | .CHK_AIN => s.rb (Reg.CHK_ACFG h.i) 31
     | .VAL_PART_OWNER => !s.noneToNone a 31 30 w
     | .COL_BUS => !s.noneToNone a 31 30 w
     | .DAC_GCFG => !s.noneToNone a 31 30 w
     | .MCK_CTRL => !s.noneToNone a 31 30 w
     | .PUP_TASK_CFG => !s.noneToNone a 7 6 w
     | _ => true)).getD false

/-- A field that a read of the slot clears, and that earlier accesses of the slot set: the read finds it as it stood before
the slot, and the setting follows the clear (R15). -/
def Slotted.readAgain (r : Slotted) (m : Access1) : Made :=
  let a := m.addr / 4 * 4
  let rc := codeBits a .rc
  let set := if r.past.any (fun x => !x.write && decide (x.addr / 4 * 4 = a)) then 0 else r.late a rc
  if set = 0 then r.state.access m
  else
    let x := (r.state.setReg a ((r.state.reg a &&& ~~~ rc) ||| (r.before.reg a &&& rc))).access m
    { x with state := x.state.orReg a set }

/-- One access of a slot. -/
def slotAccess (r : Slotted) (m : Access1) : Slotted :=
  let ok (x : Made) := m.write && decide (x.cause = 0)
  let x := if m.write then r.state.access m else r.readAgain m
  let t := if ok x then m.words.foldl (fun t w => t.setAgain w.1 (r.late w.1 (codeBits w.1 .w1c &&& w.2))) x.state else x.state
  { r with
    state := t, past := r.past ++ [m]
    made := if ok x then r.made ++ [(m.req, m.words.filter fun w => r.state.takesEffect w.1 w.2)] else r.made
    answers := r.answers ++ [{ req := m.req, value := BitVec.ofNat 64 (leNat x.bytes), cause := x.cause }] }

/-- Words to which two requesters wrote different values, with a requester concerned. -/
def collisions (l : List (Req × List (Nat × Word))) : List (Nat × Req) :=
  l.flatMap fun x => l.flatMap fun y =>
    if x.1 = y.1 then []
    else (x.2.filter fun u => y.2.any fun v => decide (v.1 = u.1) && decide (v.2 ≠ u.2)).map fun u => (u.1, x.1)

/-- The collisions of a slot are flagged (R507). -/
def State.flagCollisions (s : State) (cs : List (Nat × Req)) : State :=
  match cs with
  | [] => s
  | c :: l =>
    let s := if s.rf Reg.SYS_COLL 3 0 = 0 then
        s.setReg Reg.SYS_COLL_ADDR (BitVec.ofNat 32 (l.foldl (fun m e => min m e.1) c.1))
      else s
    let s := cs.foldl (fun t e => t.orReg Reg.SYS_COLL (onebit (Req.ix e.2))) s
    let s := if cs.any fun e => decide (e.2 = .hpa) then s.cause 0 6 else s
    if cs.any fun e => decide (e.2 = .hpb) then s.cause 1 6 else s

/-- One arbitration slot: its accesses in the order of R505, their answers, their collisions, and after them the snapshot of
a COMMIT that it accepted (R641). -/
def State.slotOf (s : State) (l : List Access1) : State :=
  let order := l.foldr (insertAccess s.arbLast) []
  let s : State := match order with
    | x :: _ :: _ => { s with arbLast := some x.req }
    | _ => s
  let r := order.foldl slotAccess { before := s, state := s }
  { State.commitSnapshot s (r.state.flagCollisions (collisions r.made)) with slotResp := r.answers }

/-- A 64-bit access that R509 splits. -/
def splits (w : RegAccess) : Bool := decide (w.size = 8) && decide (w.addr % 8 = 0) && !wideAt w.addr

/-- The access that a requester makes in the first slot. -/
def firstHalf (w : RegAccess) : RegAccess := if splits w then { w with size := 4 } else w

/-- The second half of a split access, made in the next slot (R510). -/
def secondHalf (w : RegAccess) : Option RegAccess :=
  if splits w then some { w with addr := w.addr + 4, size := 4, value := w.value.map fun v : Dword => v >>> 32 } else none

/-- As the slot takes it. -/
def regMade (w : RegAccess) : Access1 :=
  { req := w.req, write := w.value.isSome, bar2 := !isCsr w.addr, askew := decide (w.addr % w.size ≠ 0)
    lanes := lanesOf w.addr w.size (w.value.getD 0).toNat }

/-- Accesses join those that stand in the next slot, or stand in one before it where a requester would be in it twice
(R505). -/
def postFirst (l : List RegAccess) (p : List (List RegAccess)) : List (List RegAccess) :=
  match l, p with
  | [], p => p
  | l, [] => [l]
  | l, x :: p => if l.any fun w => x.any fun v => decide (v.req = w.req) then l :: x :: p else (l ++ x) :: p

/-- The next slot of the standing accesses, which `own` joins; the second halves stand in the slot after it. -/
def State.nextSlot (s : State) (own : List Access1) : State :=
  match s.posted with
  | [] => s.slotOf own
  | l :: rest =>
    ({ s with posted := postFirst (l.filterMap secondHalf) rest } : State).slotOf (own ++ l.map fun w => regMade (firstHalf w))

/-- Every standing access is made, in slots of their own: `n` slots at most. -/
def State.clearPosted : Nat → State → State
  | 0, s => s
  | n + 1, s => if s.posted.isEmpty then s else State.clearPosted n (s.nextSlot [])

/-- A requester's accesses keep their order: where one of it stands at the arbiter, all that stand are made first. -/
def State.giveWay (s : State) (qs : List Req) : State :=
  if s.posted.any fun l => l.any fun w => qs.contains w.req then State.clearPosted (2 * s.posted.length) s else s

/-- One access of a requester, after those of it that stand at the arbiter (R482). Where it passes the arbiter, the accesses
that stand there share its slot. -/
def State.arbitrate (s : State) (m : Access1) : Made :=
  if s.posted.isEmpty then s.access m
  else
    let s := s.giveWay [m.req]
    if s.posted.isEmpty || !m.arbitrated then s.access m
    else
      let t := s.nextSlot [m]
      match t.slotResp.find? fun x => decide (x.req = m.req) with
      | some x => { state := t, bytes := if m.write then [] else toLE x.value.toNat m.lanes.length, cause := x.cause }
      | none => { state := t }

/-! ### A request as a sequence of accesses -/

/-- What a sequence of accesses leaves: the state, the bytes read, and the first cause of refusal. -/
structure Served where
  state : State
  bytes : Lanes := []
  cause : Nat := 0

/-- One access of a sequence served. -/
def serveAccess (q : Req) (write regs bar2 : Bool) (r : Served) (g : Lanes) : Served :=
  let x := r.state.arbitrate { req := q, write := write, regs := regs, bar2 := bar2, lanes := g }
  { state := x.state, bytes := r.bytes ++ (g.zip x.bytes).map (fun e => (e.1.1, e.2))
    cause := if r.cause = 0 then x.cause else r.cause }

/-- A sequence of accesses, each in a slot of its own (R510, R517). -/
def State.serve (s : State) (q : Req) (write regs bar2 : Bool) (gs : List Lanes) : Served :=
  gs.foldl (serveAccess q write regs bar2) { state := s }

/-! ### Accesses that stall (R344, R356), and the order of a port (R482) -/

/-- An access to address `a` waits for a drain, or for the clear after OFF. -/
def State.stalls (s : State) (q : Req) (a : Nat) : Bool :=
  if a < 0x04000000 then s.wsStalls (Req.agent q) (bankOf a)
  else s.rb Reg.WS_STAT 16 && decide (a < 0x05C00000)

/-- Device address of offset x of a BAR (R479, R480). -/
def barAddress (bar2 : Bool) (x : Nat) : Nat := if bar2 then x else 0x07000000 + x

/-- Some access of a request would wait. -/
def State.requestStalls (s : State) (p : Port) (bar2 : Bool) (m : MemReq) : Bool :=
  bar2 && (enabledFrom (barAddress bar2 m.offset) m.lanes).any fun e => s.stalls (Port.req p) e.1

/-- A write that the port received earlier still waits, so that every later request waits behind it (R482). A read that
waits holds nothing up (R335). -/
def State.heldBack (s : State) (p : Port) : Bool := s.stalled.any fun e => decide (e.1 = p) && e.2.2.isWrite

/-- The port accepts BAR accesses: its link is up, and it is in D0 (R501). -/
def State.portTakes (s : State) (p : Port) : Bool :=
  let h := s.port (Port.ix p)
  h.link.up && !h.d3hot

/-- A memory request is served: its accesses in order, and for a read the bytes of its completion (R479 to R482). -/
def State.barServe (s : State) (p : Port) (bar2 : Bool) (m : MemReq) : State :=
  let base := barAddress bar2 m.offset
  let r := s.serve (Port.req p) m.isWrite (!bar2) bar2 (accessesOf (!bar2) (enabledFrom base m.lanes))
  let bytes := if m.isWrite then [] else (List.range m.lanes.length).map fun i => tget 0 r.bytes (base + i)
  { r.state with resp := { value := 0, cause := r.cause, bytes := bytes } }

/-- One request of a port, or one that it kept: served, unless it must wait. -/
def State.resumeOne (s : State) (e : Port × Bool × MemReq) : State :=
  if s.heldBack e.1 || s.requestStalls e.1 e.2.1 e.2.2 then { s with stalled := s.stalled ++ [e] }
  else s.barServe e.1 e.2.1 e.2.2

/-- A memory request received on a BAR. With no link none comes; in D3hot it is an unsupported request (R501; log entry 35); one
that must wait, or that an earlier write of its port waits before, is kept in order (R482). -/
def State.barRequest (s : State) (p : Port) (bar2 : Bool) (m : MemReq) : State :=
  let t := s.setPort (Port.ix p) (s.port (Port.ix p)).wake
  if s.portTakes p then t.resumeOne (p, bar2, m)
  else if (s.port (Port.ix p)).link.up then t.unsupportedRequest (Port.ix p) m.isWrite
  else s

/-- The requests that need not wait any more are served, in order. -/
def State.resumeStalled (s : State) : State :=
  s.stalled.foldl State.resumeOne { s with stalled := [] }

/-! ### Accesses of requesters -/

/-- The port of a host; a Stage Engine has none. -/
def Req.port? : Req → Option Port
  | .hpa => some .a
  | .hpb => some .b
  | .se0 => none
  | .se1 => none

/-- The memory request that a host's access is: on BAR0 for a register, on BAR2 for a node or string (R479, R480). -/
def portRequest (w : RegAccess) : Bool × MemReq :=
  (!isCsr w.addr,
   { isWrite := w.value.isSome, offset := if isCsr w.addr then w.addr - 0x07000000 else w.addr
     lanes := (lanesOf w.addr w.size (w.value.getD 0).toNat).map fun e => some e.2 })

/-- An access reaches the arbiter at once: the registers answer (R617), a host's port takes it and no earlier write of the
port waits, and the tables are not being cleared (R356, R482, R501). -/
def State.reaches (s : State) (w : RegAccess) : Bool :=
  s.awake && !s.stalls w.req w.addr &&
    match Req.port? w.req with
    | none => true
    | some p => s.portTakes p && !s.heldBack p

/-- An access that does not reach the arbiter at once: a host's waits in its port where the port takes it; a Stage Engine's
core tries again, and nothing else takes it. -/
def State.keepBack (s : State) (w : RegAccess) : State :=
  match Req.port? w.req with
  | some p => if s.awake && s.portTakes p then { s with stalled := s.stalled ++ [(p, portRequest w)] } else s
  | none => s

/-- The lanes of each access that a register access makes: two where R509 splits it. -/
def regParts (w : RegAccess) : List Lanes :=
  accessesOf true (lanesOf w.addr w.size (w.value.getD 0).toNat)

/-- An access alone: nothing of another requester comes with it (R509). -/
def State.single (s : State) (w : RegAccess) : State :=
  if s.reaches w = false then s.keepBack w
  else if (regMade w).askew then
    let r := s.arbitrate (regMade w)
    { r.state with resp := { cause := r.cause } }
  else
    let r := s.serve w.req w.value.isSome true (!isCsr w.addr) (regParts w)
    { r.state with resp := { value := BitVec.ofNat 64 (leNat (r.bytes.map (·.2))), cause := r.cause } }

/-- A read by a requester (R509). -/
def State.regRead (s : State) (q : Req) (a size : Nat) : State := s.single ⟨q, a, size, none⟩

/-- A write by a requester. -/
def State.writeAlone (s : State) (q : Req) (a size : Nat) (v : Dword) : State := s.single ⟨q, a, size, some v⟩

/-- A 32-bit register write. -/
def State.put32 (s : State) (q : Req) (a : Nat) (w : Word) : State := s.writeAlone q a 4 (w.setWidth 64)

/-- The accesses of one slot that reach the arbiter; the others are kept back. -/
def admitted (x : State × List RegAccess) (w : RegAccess) : State × List RegAccess :=
  if x.1.reaches w then (x.1, x.2 ++ [w]) else (x.1.keepBack w, x.2)

/-- Accesses that meet in one slot: one alone is a single access; of several the first halves meet in this slot, the second
halves in the next. The response is that of the access ordered last. -/
def State.registerSlot (s : State) (l : List RegAccess) : State :=
  match l with
  | [w] => s.single w
  | _ =>
    let x := l.foldl admitted (s, [])
    match x.2 with
    | [] => x.1
    | l =>
      let s := x.1.giveWay (l.map (·.req))
      let t := ({ s with posted := postFirst l s.posted } : State).nextSlot []
      let t : State := if l.any splits then
          let u := t.nextSlot []
          { u with slotResp := t.slotResp ++ u.slotResp }
        else t
      let x := t.slotResp.getLastD { req := .hpa }
      { t with resp := { cause := x.cause, value := x.value } }

/-- REGISTER_WRITE: the accesses of one slot, made now, or left standing at the arbiter (R505, R506). -/
def State.registerWrites (s : State) (l : List RegAccess) (meets : Bool) : State :=
  if meets then
    let x := l.foldl admitted (s, [])
    if x.2.isEmpty then x.1 else { x.1 with posted := x.1.posted ++ [x.2] }
  else s.registerSlot l

end Sys2Proof.Machine
end

