-- ==== Sys2Proof/WellFormed.lean ====
section
/-! DEFINITION. Which commands are well formed: the operands that a host, a pin or a unit of the device can
send. A command that fails here ends in the fault `illFormed`; nothing the manual describes can send it. -/

namespace Sys2Proof

/-- A width that a register access can have (R509): 1, 2, 4 or 8 bytes. -/
def sizeOk (n : Nat) : Bool := n == 1 || n == 2 || n == 4 || n == 8

/-- A node or string word lies at the address (R253). -/
def tableRange (addr : Nat) : Bool :=
  (decide (0x05000000 ≤ addr) && decide (addr < 0x05440000)) || (decide (0x05800000 ≤ addr) && decide (addr < 0x05C00000))

/-- A register, node or string access: its width exists, and its address lies in the register blocks or the tables, the
ranges that the register arbiter orders (R7, R505). -/
def accessOk (addr size : Nat) : Bool :=
  sizeOk size && (tableRange addr || (decide (0x07000000 ≤ addr) && decide (addr < 0x07200000)))

/-- The accesses of one slot, each by another requester (R505). -/
def slotOk : List RegAccess → Bool
  | [] => true
  | w :: l => accessOk w.addr w.size && l.all (fun x => decide (x.req ≠ w.req)) && slotOk l

/-- A memory request of at most 4,096 bytes, the largest a PCI Express request has, inside a window of `span` bytes. -/
def MemReq.ok (m : MemReq) (span : Nat) : Bool :=
  decide (m.lanes.length ≤ 4096) && decide (m.offset + m.lanes.length ≤ span)

/-- What a link can train to: x1 or x2, at 2.5, 5.0, 8.0 or 16.0 GT/s (R473). -/
def linkOk (width speed : BitVec 4) : Bool := (width == 1 || width == 2) && decide (1 ≤ speed) && decide (speed ≤ 4)

/-- A descriptor read: 1 to 8 slots of 64 bytes (R486), or an error. -/
def FetchResult.ok : FetchResult → Bool
  | .slots d => decide (d.length ≤ 8) && d.all fun b => b.length == 64
  | .error _ => true

/-- The command can be sent. -/
def Instr.wf : Instr → Bool
  | .tdmPortFrame _ f => decide (f.di.length ≤ 1024)
  | .bar0Request _ m => m.ok 0x200000
  | .bar2Request _ m => m.ok 0x10000000
  | .registerWrite slot => !slot.accesses.isEmpty && slotOk slot.accesses
  | .latchedRead _ a n => accessOk a n
  | .clearOnRead _ a n => accessOk a n
  | .nodeTableWrite _ a n _ => sizeOk n && tableRange a
  | .descriptorFetch _ _ r => r.ok
  | .linkUp _ width speed => linkOk width speed
  | .configurationRequest _ (.header n) _ => decide (n < 4096) && n % 4 == 0
  | _ => true

end Sys2Proof
end

