-- ==== Sys2Proof/Machine/AccessCmd.lean ====
section
/-! DEFINITION. The commands that are one register access of one requester, or one arbitration slot of them: each is the
access of R505 to R513 at its register, so its rights, its refusals and its effect are those of the register. -/

namespace Sys2Proof.Machine

/-- REGISTER_WRITE (R505 to R511): the accesses that meet in one arbitration slot, made now or left standing at the arbiter
until another command's access shares their slot. -/
def execRegisterWrite (slot : RegSlot) (s : State) : Host.Outcome State Fault Refusal :=
  doneIf (Instr.wf (.registerWrite slot)) "REGISTER_WRITE" s (s.registerWrites slot.accesses slot.meets)

/-- LATCHED_READ (R16, R17, R509). -/
def execLatchedRead (q : Req) (addr size : Nat) (s : State) : Host.Outcome State Fault Refusal :=
  doneIf (Instr.wf (.latchedRead q addr size)) "LATCHED_READ" s (s.regRead q addr size)

/-- CLEAR_ON_READ (R14, R509). -/
def execClearOnRead (q : Req) (addr size : Nat) (s : State) : Host.Outcome State Fault Refusal :=
  doneIf (Instr.wf (.clearOnRead q addr size)) "CLEAR_ON_READ" s (s.regRead q addr size)

/-- NODE_TABLE_WRITE (R253 to R257). -/
def execNodeTableWrite (q : Req) (addr size : Nat) (v : Dword) (s : State) : Host.Outcome State Fault Refusal :=
  doneIf (Instr.wf (.nodeTableWrite q addr size v)) "NODE_TABLE_WRITE" s (s.writeAlone q addr size v)

/-- SEM_TRY (R528): a read of SEM_TRY[n]. -/
def execSemTry (q : Req) (n : Fin 64) (s : State) : Host.Outcome State Fault Refusal :=
  done s (s.regRead q (Reg.SEM_TRY n.val) 4)

/-- UART_RXD_READ (R548): a read of UART_RXD[u]. -/
def execUartRxdRead (q : Req) (u : Fin 4) (s : State) : Host.Outcome State Fault Refusal :=
  done s (s.regRead q (Reg.UART_RXD u.val) 4)

/-- TXN_SDATA_STAGE (R533): a 64-bit write of TXN_SDATA[i], the address in bits 63 to 32. -/
def execTxnSdataStage (q : Req) (i : Fin 4) (v : Dword) (s : State) : Host.Outcome State Fault Refusal :=
  done s (s.writeAlone q (Reg.TXN_SDATA i.val) 8 v)

/-- SEM_REL (R529): the holder frees a semaphore. -/
def execSemRel (q : Req) (n : Fin 64) (s : State) : Host.Outcome State Fault Refusal :=
  done s (s.put32 q (Reg.SEM_REL n.val) 1)

/-- TXN_CTRL_OPEN (R531). -/
def execTxnCtrlOpen (q : Req) (i : Fin 4) (s : State) : Host.Outcome State Fault Refusal :=
  done s (s.put32 q (Reg.TXN_CTRL i.val) 1)

/-- TXN_CTRL_COMMIT (R535). -/
def execTxnCtrlCommit (q : Req) (i : Fin 4) (s : State) : Host.Outcome State Fault Refusal :=
  done s (s.put32 q (Reg.TXN_CTRL i.val) 2)

/-- TXN_CTRL_ABORT (R531). -/
def execTxnCtrlAbort (q : Req) (i : Fin 4) (s : State) : Host.Outcome State Fault Refusal :=
  done s (s.put32 q (Reg.TXN_CTRL i.val) 4)

/-- TXN_SADDR_WRITE (R533): stages the value in TXN_SDATA at an address. -/
def execTxnSaddrWrite (q : Req) (i : Fin 4) (addr : Word) (s : State) : Host.Outcome State Fault Refusal :=
  done s (s.put32 q (Reg.TXN_SDATA i.val + 4) addr)

/-- HMAP_LOAD (R85): a write of EVT_HMAPx_CTRL with LOAD = 1. -/
def execHmapLoad (q : Req) (p : Port) (v : Word) (s : State) : Host.Outcome State Fault Refusal :=
  done s (s.put32 q (Reg.EVT_HMAP_CTRL (Port.ix p)) (v ||| 1))

/-- HMAP_MODE_CHANGE (R87): a write of EVT_HMAPx_CTRL. -/
def execHmapModeChange (q : Req) (p : Port) (v : Word) (s : State) : Host.Outcome State Fault Refusal :=
  done s (s.put32 q (Reg.EVT_HMAP_CTRL (Port.ix p)) v)

/-- STG_DOORBELL (R421). -/
def execStgDoorbell (q : Req) (e : Fin 2) (v : Word) (s : State) : Host.Outcome State Fault Refusal :=
  done s (s.put32 q (Reg.STG_DOORBELL e.val) v)

/-- STG_SENDGO (R414, R415). -/
def execStgSendgo (q : Req) (e : Fin 2) (kind : Bool) (s : State) : Host.Outcome State Fault Refusal :=
  done s (s.put32 q (Reg.STG_SENDGO e.val) (BitVec.ofNat 32 (b2n kind)))

/-- STG_SVC_POP (R417). -/
def execStgSvcPop (q : Req) (e : Fin 2) (s : State) : Host.Outcome State Fault Refusal :=
  done s (s.put32 q (Reg.STG_SVC_POP e.val) 1)

/-- STG_LOAD (R405, R406): a write of STG_CTRL[e] with LOAD = 1. -/
def execStgLoad (q : Req) (e : Fin 2) (v : Word) (s : State) : Host.Outcome State Fault Refusal :=
  done s (s.put32 q (Reg.STG_CTRL e.val) (v ||| 8))

/-- STG_START (R408): a write of STG_CTRL[e] with START = 1. -/
def execStgStart (q : Req) (e : Fin 2) (v : Word) (s : State) : Host.Outcome State Fault Refusal :=
  done s (s.put32 q (Reg.STG_CTRL e.val) (v ||| 2))

/-- STG_STOP (R411): a write of STG_CTRL[e] with STOP = 1. -/
def execStgStop (q : Req) (e : Fin 2) (v : Word) (s : State) : Host.Outcome State Fault Refusal :=
  done s (s.put32 q (Reg.STG_CTRL e.val) (v ||| 4))

/-- STG_LOCK (R412): a write of STG_CTRL[e] with LOCK = 1. -/
def execStgLock (q : Req) (e : Fin 2) (v : Word) (s : State) : Host.Outcome State Fault Refusal :=
  done s (s.put32 q (Reg.STG_CTRL e.val) (v ||| 0x80))

/-- STG_RESUME (R420): a write of STG_CTRL[e] with RESUME = 1. -/
def execStgResume (q : Req) (e : Fin 2) (v : Word) (s : State) : Host.Outcome State Fault Refusal :=
  done s (s.put32 q (Reg.STG_CTRL e.val) (v ||| 0x10))

/-- VE_RESUME (R247): a write of VE_CTRL[n] with RESUME = 1. -/
def execVeResume (q : Req) (n : Fin 64) (v : Word) (s : State) : Host.Outcome State Fault Refusal :=
  done s (s.put32 q (Reg.VE_CTRL n.val) (v ||| 2))

/-- WS_OWN_WRITE (R341 to R347). -/
def execWsOwnWrite (q : Req) (b : Fin 16) (v : Word) (s : State) : Host.Outcome State Fault Refusal :=
  done s (s.put32 q (Reg.WS_OWN b.val) v)

/-- TASK_ENABLE (R308): a write of PUP_TASK_CFG[t] with EN = 1. -/
def execTaskEnable (q : Req) (t : Fin 256) (v : Word) (s : State) : Host.Outcome State Fault Refusal :=
  done s (s.put32 q (Reg.PUP_TASK_CFG t.val) (v ||| onebit 31))

/-- TASK_DISABLE (R310): a write of PUP_TASK_CFG[t] with EN = 0. -/
def execTaskDisable (q : Req) (t : Fin 256) (v : Word) (s : State) : Host.Outcome State Fault Refusal :=
  done s (s.put32 q (Reg.PUP_TASK_CFG t.val) (v &&& ~~~ onebit 31))

/-- TASK_RUN (R301): a write of PUP_TASK_CFG[t] with RUN = 1. -/
def execTaskRun (q : Req) (t : Fin 256) (v : Word) (s : State) : Host.Outcome State Fault Refusal :=
  done s (s.put32 q (Reg.PUP_TASK_CFG t.val) (v ||| 2))

/-- DAC_STROBE (R426, R427). -/
def execDacStrobe (q : Req) (g1 g0 : Bool) (s : State) : Host.Outcome State Fault Refusal :=
  done s (s.put32 q Reg.DAC_STROBE (BitVec.ofNat 32 (2 * b2n g1 + b2n g0)))

/-- FLATCH_CLEAR (R444). -/
def execFlatchClear (q : Req) (c : Fin 8) (s : State) : Host.Outcome State Fault Refusal :=
  done s (s.put32 q (Reg.DAC_CH_STAT c.val) 8)

/-- UART_TXD (R551). -/
def execUartTxd (q : Req) (u : Fin 4) (v : Word) (s : State) : Host.Outcome State Fault Refusal :=
  done s (s.put32 q (Reg.UART_TXD u.val) v)

/-- UART_ENABLE (R552): a write of UART_CFG[u] with EN = 1. -/
def execUartEnable (q : Req) (u : Fin 4) (v : Word) (s : State) : Host.Outcome State Fault Refusal :=
  done s (s.put32 q (Reg.UART_CFG u.val) (v ||| onebit 31))

/-- UART_DISABLE (R552): a write of UART_CFG[u] with EN = 0. -/
def execUartDisable (q : Req) (u : Fin 4) (v : Word) (s : State) : Host.Outcome State Fault Refusal :=
  done s (s.put32 q (Reg.UART_CFG u.val) (v &&& ~~~ onebit 31))

/-- ABARM (R563). -/
def execAbarm (q : Req) (u : Fin 4) (s : State) : Host.Outcome State Fault Refusal :=
  done s (s.put32 q (Reg.UART_CTRL u.val) 4)

/-- TXFLUSH (R565). -/
def execTxflush (q : Req) (u : Fin 4) (s : State) : Host.Outcome State Fault Refusal :=
  done s (s.put32 q (Reg.UART_CTRL u.val) 2)

/-- RXFLUSH (R565). -/
def execRxflush (q : Req) (u : Fin 4) (s : State) : Host.Outcome State Fault Refusal :=
  done s (s.put32 q (Reg.UART_CTRL u.val) 1)

/-- FHDR_GO (R554). -/
def execFhdrGo (q : Req) (u : Fin 4) (id : BitVec 6) (s : State) : Host.Outcome State Fault Refusal :=
  done s (s.put32 q (Reg.UART_FHDR u.val) (onebit 31 ||| id.setWidth 32))

/-- TMR_COUNT_WRITE (R569). -/
def execTmrCountWrite (q : Req) (t : Fin 16) (v : Word) (s : State) : Host.Outcome State Fault Refusal :=
  done s (s.put32 q (Reg.TMR_COUNT t.val) v)

/-- TMR_CFG_WRITE (R567, R572). -/
def execTmrCfgWrite (q : Req) (t : Fin 16) (v : Word) (s : State) : Host.Outcome State Fault Refusal :=
  done s (s.put32 q (Reg.TMR_CFG t.val) v)

/-- CHK_START (R575, R576). -/
def execChkStart (q : Req) (k : Fin 4) (s : State) : Host.Outcome State Fault Refusal :=
  done s (s.put32 q (Reg.CHK_CTRL k.val) 1)

/-- CHK_ARM (R580). -/
def execChkArm (q : Req) (k : Fin 4) (s : State) : Host.Outcome State Fault Refusal :=
  done s (s.put32 q (Reg.CHK_CTRL k.val) 2)

/-- CHK_DIN_WRITE (R577): CHK_DIN1 to CHK_DIN4 are n = 0 to 3. -/
def execChkDinWrite (q : Req) (k : Fin 4) (n : Fin 4) (v : Word) (s : State) : Host.Outcome State Fault Refusal :=
  done s (s.put32 q (Reg.CHK_DIN k.val n.val) v)

/-- CHK_AIN_WRITE (R579). -/
def execChkAinWrite (q : Req) (k : Fin 4) (v : Word) (s : State) : Host.Outcome State Fault Refusal :=
  done s (s.put32 q (Reg.CHK_AIN k.val) v)

/-- CHK_CFG_WRITE (R567). -/
def execChkCfgWrite (q : Req) (k : Fin 4) (v : Word) (s : State) : Host.Outcome State Fault Refusal :=
  done s (s.put32 q (Reg.CHK_CFG k.val) v)

/-- PROGMKH (R585). -/
def execProgmkh (q : Req) (s : State) : Host.Outcome State Fault Refusal :=
  done s (s.put32 q Reg.SEC_FUSE_CTRL 0x4D4B0001)

/-- SVNINC (R586). -/
def execSvninc (q : Req) (s : State) : Host.Outcome State Fault Refusal :=
  done s (s.put32 q Reg.SEC_FUSE_CTRL 0x4D4B0002)

/-- DBGOFF (R586). -/
def execDbgoff (q : Req) (s : State) : Host.Outcome State Fault Refusal :=
  done s (s.put32 q Reg.SEC_FUSE_CTRL 0x4D4B0004)

/-- SEAL_REQUEST (R596). -/
def execSealRequest (q : Req) (b : Fin 16) (s : State) : Host.Outcome State Fault Refusal :=
  done s (s.put32 q Reg.SEC_SEAL_REQ (onebit 31 ||| BitVec.ofNat 32 b.val))

/-- ATTEST_GO (R599). -/
def execAttestGo (q : Req) (i : Fin 4) (s : State) : Host.Outcome State Fault Refusal :=
  done s (s.put32 q (Reg.SEC_ATT_CTRL i.val) 1)

/-- CHALGO (R602). -/
def execChalgo (q : Req) (i : Fin 4) (s : State) : Host.Outcome State Fault Refusal :=
  done s (s.put32 q (Reg.SEC_DBG_CTRL i.val) 1)

/-- UNLOCK (R602). -/
def execUnlock (q : Req) (i : Fin 4) (s : State) : Host.Outcome State Fault Refusal :=
  done s (s.put32 q (Reg.SEC_DBG_CTRL i.val) 2)

/-- DEBUG_CLOSE (R601). -/
def execDebugClose (q : Req) (i : Fin 4) (s : State) : Host.Outcome State Fault Refusal :=
  done s (s.put32 q (Reg.SEC_DBG_CTRL i.val) 4)

/-- PWR_REQSET (R611). -/
def execPwrReqset (q : Req) (v : Word) (s : State) : Host.Outcome State Fault Refusal :=
  done s (s.put32 q Reg.PWR_REQSET v)

/-- PWR_REQCLR (R611). -/
def execPwrReqclr (q : Req) (v : Word) (s : State) : Host.Outcome State Fault Refusal :=
  done s (s.put32 q Reg.PWR_REQCLR v)

/-- NVM_WRITE (R631, R634). -/
def execNvmWrite (q : Req) (rid : BitVec 8) (s : State) : Host.Outcome State Fault Refusal :=
  done s (s.put32 q Reg.NVM_CMD (onebit 28 ||| rid.setWidth 32))

/-- NVM_ERASE (R634). -/
def execNvmErase (q : Req) (rid : BitVec 8) (s : State) : Host.Outcome State Fault Refusal :=
  done s (s.put32 q Reg.NVM_CMD (onebit 29 ||| rid.setWidth 32))

/-- NVM_COMMIT (R634, R641). -/
def execNvmCommit (q : Req) (s : State) : Host.Outcome State Fault Refusal :=
  done s (s.put32 q Reg.NVM_CMD 0x30000000)

/-- AGE_MEAS (R645): a write of AGE_CTRL with MEAS = 1. -/
def execAgeMeas (q : Req) (v : Word) (s : State) : Host.Outcome State Fault Refusal :=
  done s (s.put32 q Reg.AGE_CTRL (v ||| onebit 31))

end Sys2Proof.Machine
end

