-- ==== Sys2Proof/Machine/OutCmd.lean ====
section
/-! DEFINITION. What happens to released events, published frames, the digital ports, the references of the media clock and the converters. -/

namespace Sys2Proof.Machine

/-- The media clock runs: frame strobes are made (R451). -/
def State.clocked (s : State) : Bool := s.awake && decide (s.mck.st ≠ .off)

/-- The media clock has made its first strobe: frames and the edges of references have their times (R75, R453). -/
def State.ticking (s : State) : Bool := s.clocked && s.now.isSome

/-- The oldest publication of voice v that its slice has still to make or that a migration's copy has released, when its turn
in its slice has come (R291, R293): one held for a copy is evaluated and waits (R325), one whose frame an earlier task still
reads is deferred, and counted once (R282). -/
def State.framePublish (s : State) (v : Nat) : State :=
  match s.pubs.find? fun q => decide (q.voice = v) && !(q.heldForCopy && q.loose) && !q.deferred with
  | none => s
  | some q =>
    if s.hasTurn q then
      if q.heldForCopy then (s.loosen q).endEvals
      else if s.frameRead v q.blk q.frameNo (s.ctx v).ve then (s.deferFrame q).endEvals
      else (s.publish q).endEvals.stampAll
    else s

/-- The oldest deferred publication is made once no earlier task reads its frame (R282). -/
def State.deferredPublish (s : State) (v : Nat) : State :=
  match s.overdue v with
  | [] => s
  | q :: _ => (s.writeFrame q).stampAll

/-- The S/PDIF receiver gains or loses lock (R394): LOCK and RATE. The edges of candidate 1 are measured anew, and its conditions
break there (R458, R459). -/
def State.spdifLock (s : State) (lock : Bool) (rate : BitVec 4) (pos : Nat) : State :=
  let time := s.timeIn pos
  let s := (s.setRf Reg.OUT_SPDIF_RX 0 0 (b2n lock)).setRf Reg.OUT_SPDIF_RX 7 4 (if lock then rate.toNat else 0)
  s.setCand 1 { s.cand 1 with edges := [], pos := none, yr := 0, measured := false, broke := time }

/-- A rising edge of DAC_LOAD loads the groups whose source it is (R426). -/
def State.dacLoadPin (s : State) : State :=
  match s.variant with
  | .c => s
  | .f => s.dacStrobeFrom 2 true true

/-- The frame sync of TDM port 0 as responder marks an edge of candidate 2, and its port frame holds the BCLK periods of its
slots or does not (R457). -/
def State.tdmSync (s : State) (n : Nat) (f : TdmIn) : State :=
  let cfg := s.reg (Reg.OUT_TDM_CFG 0)
  if n = 0 ∧ bit cfg 31 = true ∧ bit cfg 30 = true then
    let t := s.setCand 2 { s.cand 2 with fits := decide (f.bclk = s.tdmSlots 0 * s.tdmSlotBits 0) }
    (State.candBegins s 2 (s.timeIn f.pos.toNat) t).edgeSeen 2 f.pos.toNat
  else s

/-- TDM_PORT_FRAME (R385 to R390, R457). -/
def execTdmPortFrame (n : Fin 4) (f : TdmIn) (s : State) : Host.Outcome State Fault Refusal :=
  doneIf (Instr.wf (.tdmPortFrame n f)) "TDM_PORT_FRAME" s
    (if s.ticking then (s.tdmSync n.val f).tdmFrame n.val f.di else s)

/-- DEFERRED_RELEASE (R98). -/
def execDeferredRelease (s : State) : Host.Outcome State Fault Refusal := done s (s.whenRunning s.deferredRelease)

/-- EVT_TAKE_UART_ENTRY (R57). -/
def execEvtTakeUartEntry (u : Fin 2) (s : State) : Host.Outcome State Fault Refusal :=
  done s (s.whenAwake (s.takeUart u.val))

/-- FRAME_PUBLISH (R281, R282, R292). -/
def execFramePublish (v : Fin 8192) (s : State) : Host.Outcome State Fault Refusal :=
  done s (s.whenRunning (s.framePublish v.val))

/-- DEFERRED_PUBLISH (R282). -/
def execDeferredPublish (v : Fin 8192) (s : State) : Host.Outcome State Fault Refusal :=
  done s (s.whenRunning (s.deferredPublish v.val))

/-- SPDIF_CS_BLOCK (R392): the first frame of a 192-frame block is due. -/
def execSpdifCsBlock (s : State) : Host.Outcome State Fault Refusal :=
  done s (if s.col.spdifPos = 0 then { s with col := { s.col with csNow := s.reg Reg.OUT_SPDIF_TX } } else s)

/-- SPDIF_RX_FRAME (R394, R457). -/
def execSpdifRxFrame (f : SpdifFrame) (s : State) : Host.Outcome State Fault Refusal :=
  done s (if s.ticking then (s.edgeSeen 1 f.pos.toNat).spdifRx f else s)

/-- CANDIDATE_QUALIFY (R459). -/
def execCandidateQualify (r : Fin 5) (cycle : BitVec 12) (part : Byte) (s : State) : Host.Outcome State Fault Refusal :=
  done s (s.whenAwake (s.qualify r.val (instant cycle part)))

/-- SPDIF_LOCK_CHANGE (R394, R457, R458). -/
def execSpdifLockChange (lock : Bool) (rate : BitVec 4) (cycle : BitVec 12) (part : Byte) (s : State) :
    Host.Outcome State Fault Refusal :=
  done s (s.whenAwake (s.spdifLock lock rate (instant cycle part)))

/-- WCLK_IN_EDGE (R457, R458). -/
def execWclkInEdge (cycle : BitVec 12) (part : Byte) (s : State) : Host.Outcome State Fault Refusal :=
  done s (if s.ticking then s.edgeSeen 0 (instant cycle part) else s)

/-- MUTE_RAMP_END (R445). -/
def execMuteRampEnd (s : State) : Host.Outcome State Fault Refusal := done s s.muteEnd

/-- DAC_LOAD_EDGE (R426): a rising edge; the PV8K1-C has no such pin (R3). -/
def execDacLoadEdge (s : State) : Host.Outcome State Fault Refusal := done s (s.whenAwake s.dacLoadPin)

/-- DAC_CLR_CHANGE (R431, R432). -/
def execDacClrChange (level : Bool) (s : State) : Host.Outcome State Fault Refusal := done s (s.dacClr level)

/-- DEGLITCH_RELEASE (R434). -/
def execDeglitchRelease (c : Fin 8) (s : State) : Host.Outcome State Fault Refusal :=
  done s (s.whenAwake (s.dacRelease c.val))

/-- FAULT_QUALIFY (R442). -/
def execFaultQualify (c : Fin 8) (openLoad window : Bool) (s : State) : Host.Outcome State Fault Refusal :=
  done s (if s.ticking then s.dacQualify c.val openLoad window else s)

end Sys2Proof.Machine
end

