-- ==== Sys2Proof/Machine/Ports.lean ====
section
/-! DEFINITION. The host ports: links, resets, power states, configuration space and PTM (R473 to R478, R498 to R504). -/

namespace Sys2Proof.Machine

/-! ### The link (R475, R500) -/

/-- Link training ends, after release and with PERST_N high (R475). -/
def State.linkUp (s : State) (p : Nat) (width speed : BitVec 4) : State :=
  let h := s.port p
  if h.released && h.perstHigh && !h.link.up then
    s.setPort p { h.setLink .l0 with width := width, speed := speed }
  else s

/-- The substate asked for is enabled: ASPM's own enables in D0, those of PCI-PM in D3hot (R500). Bits 3 to 0 of the
L1 PM Substates control are ASPM L1.1, ASPM L1.2, PCI-PM L1.1 and PCI-PM L1.2 (log entry 35). -/
def HostPort.subEnabled (h : HostPort) (sub : Nat) : Bool :=
  match sub with
  | 0 => true
  | 1 => h.l1ss.getLsbD (if h.d3hot then 1 else 3)
  | _ => h.l1ss.getLsbD (if h.d3hot then 0 else 2)

/-- The port may request L1: ASPM L1 is enabled, or D3hot, SLEEP or sag level 3 asks for it (R500, R502, R613). -/
def State.l1Allowed (s : State) (p : Nat) : Bool :=
  (s.port p).aspmL1 || (s.port p).d3hot || decide (s.phase = .sleep) || decide (3 ≤ s.sagActed)

/-- The port has something to send, or has issued a request that is outstanding: a PTM dialogue, a descriptor read, or a
completion that the host has room for (R500). -/
def State.portBusy (s : State) (p : Nat) : Bool :=
  (s.hm p).dialogue || (List.range 4).any fun r => s.fetching p r || s.completing p r

/-- The link state that a request for L1 or for substate 1 or 2 leads to. -/
def l1State : Nat → LinkState
  | 0 => .l1
  | 1 => .l11
  | _ => .l12

/-- The port enters L1 or a substate after 8 µs of idle, with nothing outstanding (R500). -/
def State.l1Entry (s : State) (p sub : Nat) : State :=
  let h := s.port p
  if h.link = .l0 ∧ s.l1Allowed p ∧ h.subEnabled sub ∧ s.portBusy p = false then s.setPort p (h.setLink (l1State sub)) else s

/-- Activity brings the link back to L0 (R500). -/
def State.l1Exit (s : State) (p : Nat) : State := s.setPort p (s.port p).wake

/-! ### Resets (R503, R504, R526) -/

/-- Parts owned by an agent at the reset are released at the next control tick (R106), also where their owner has changed by
then (DESIGN CHOICE, unsafe: log entry 54). -/
def State.releaseParts (s : State) (agent : Nat) : State :=
  (s.listed (Reg.VAL_PART_OWNER 0) 1024 4).foldl (fun t e =>
    if fld e.2 31 30 = agent then t.setPart e.1 { t.part e.1 with relAll := true } else t) s

/-- What every kind of reset of port p does outside its link and configuration space. -/
def State.portReset (s : State) (p : Nat) : State :=
  let base := 0x07010000 + 0x10000 * p
  let s : State := { s with
    csr := tclear s.csr base 0x10000
    heap := s.heap.filter fun e => decide (e.src / 4 ≠ p)
    stalled := s.stalled.filter fun e => decide (Port.ix e.1 ≠ p)
    posted := s.posted.map fun l => l.filter fun w => decide (w.req ≠ reqOf p) }
  let s := s.setPort p { s.port p with rings := [], pendVec := 0 }
  let s := (s.releaseParts (p + 1)).semFreeAll (reqOf p)
  let s := s.txnAbort p
  let s := (s.setRf (Reg.EVT_HMAP_STAT p) 2 2 0).setHm p { s.hm p with dialogue := false }
  let s := s.setSec { s.sec with unlocking := tput [] s.sec.unlocking p [] }
  s.lockClose p

/-- Under a function-level reset the completions of commands that have taken effect are written first (R526). -/
def State.flushCompletions (s : State) (p : Nat) : State :=
  iter (fun r t => nTimes (fun u => u.completionWrite p r) (t.ring p r).done.length t) 0 4 s

/-- A function-level reset: the link stays up, and the base specification keeps Link Control, the L1 substate and the payload
settings (R503; log entry 35). -/
def State.portFlr (s : State) (p : Nat) : State :=
  if (s.port p).link.up = false then s
  else
    let s := (s.flushCompletions p).portReset p
    let h := s.port p
    s.setPort p { h with
      d3hot := false, ptmEnable := false, busMaster := false, msixEnable := false, msixMaskAll := false
      maxRead := 512, header := h.header.filter fun e => decide (e.1 = 0x80) }

/-- The port after a reset of its configuration space as well, with the link state and PERST_N given. Only PERST_N low
resets the sticky words of AER (R503). -/
def State.portConventional (s : State) (p : Nat) (l : LinkState) (perst : Bool) : State :=
  let s := s.portReset p
  let h := s.port p
  s.setPort p { link := l, released := h.released, perstHigh := perst, out := h.out, aer := if l = .reset then [] else h.aer }

/-- A hot reset: the link trains again. -/
def State.portHotReset (s : State) (p : Nat) : State :=
  if (s.port p).link.up then s.portConventional p .down (s.port p).perstHigh else s

/-- The link goes down: a reset while the port is in D0. -/
def State.portLinkDown (s : State) (p : Nat) : State :=
  let h := s.port p
  if h.link.up = false then s
  else if h.d3hot then s.setPort p { h.setLink .down with width := 0, speed := 0 }
  else s.portConventional p .down h.perstHigh

/-- PERST_N goes low: the PHY is held in reset. -/
def State.portPerst (s : State) (p : Nat) : State := s.portConventional p .reset false

/-- PERST_N rises: training may begin (R475). -/
def State.perstRelease (s : State) (p : Nat) : State :=
  let h := s.port p
  s.setPort p { h with perstHigh := true, link := if h.link = .reset then .down else h.link }

/-! ### D3hot (R501) -/

def State.d3hotEntry (s : State) (p : Nat) : State :=
  if (s.port p).link.up then s.setPort p { s.port p with d3hot := true } else s

/-- D0 again: vectors held pending are sent (R495). -/
def State.d0Return (s : State) (p : Nat) : State :=
  if (s.port p).link.up && (s.port p).d3hot then (s.setPort p { s.port p with d3hot := false }).flushVectors p else s

/-! ### Configuration space (R477, R478) -/

/-- Writable bits of a header word: the command register's enables, the base addresses above their sizes, the interrupt
line (R477). -/
def headerMask (off : Nat) : Word :=
  match off with
  | 0x04 => 0x0546
  | 0x10 => 0xFFE00000
  | 0x14 => 0xFFFFFFFF
  | 0x18 => 0xF0000000
  | 0x1C => 0xFFFFFFFF
  | 0x3C => 0xFF
  | _ => 0

/-- Capability ID, version and next pointer of the extended capability at an offset (R478). -/
def extHeader : Nat → Option Word
  | 0x100 => some 0x15020001
  | 0x150 => some 0x17010019
  | 0x170 => some 0x1A010026
  | 0x1A0 => some 0x1B010027
  | 0x1B0 => some 0x1C01001F
  | 0x1C0 => some 0x0001001E
  | _ => none

/-- The capability that holds the word at an offset: where it begins; none at an offset that appears in no capability of
R478. The structures have the sizes of the base specification, for two lanes (log entry 35). -/
def capOf (off : Nat) : Option Nat :=
  let within (b n : Nat) : Bool := decide (b ≤ off) && decide (off < b + n)
  if within 0x40 8 then some 0x40
  else if within 0x50 12 then some 0x50
  else if within 0x70 0x3C then some 0x70
  else if within 0x100 0x2C then some 0x100
  else if within 0x150 0x10 then some 0x150
  else if within 0x170 0x24 then some 0x170
  else if within 0x1A0 0x10 then some 0x1A0
  else if within 0x1B0 0xC then some 0x1B0
  else if within 0x1C0 0x10 then some 0x1C0
  else none

/-- The encoding of a payload or request size: 0 for 128 bytes, 1 for 256, 2 for 512. -/
def sizeCode (n : Nat) : Nat := if n = 128 then 0 else if n = 256 then 1 else 2

/-- Fields of a capability word that R476 to R478 state or a setting holds: which bits, and their value. -/
def HostPort.capFields (h : HostPort) (p off : Nat) : Word × Word :=
  match off with
  | 0x40 => (0xFFFFFFFF, 0x00035001)
  | 0x44 => (0xFFFFFFFF, BitVec.ofNat 32 (8 + if h.d3hot then 3 else 0))
  | 0x50 => (0xFFFFFFFF, BitVec.ofNat 32 (b2n h.msixEnable * 2 ^ 31 + b2n h.msixMaskAll * 2 ^ 30 + 31 * 2 ^ 16 + 0x7011))
  | 0x54 => (0xFFFFFFFF, BitVec.ofNat 32 (0x18000 + 0x10000 * p))
  | 0x58 => (0xFFFFFFFF, BitVec.ofNat 32 (0x19000 + 0x10000 * p))
  | 0x70 => (0xC1FFFFFF, 0x00020010)
  | 0x74 => (0xF003803F, 0x10008021)
  | 0x78 => (0x003FF1EF,
      tget 0 h.header off ||| BitVec.ofNat 32 (sizeCode h.maxPayload * 2 ^ 5 + sizeCode h.maxRead * 2 ^ 12))
  | 0x7C => (0x00FB8FFF, 0x00418824)
  | 0x80 => (0x03FF00CB,
      tget 0 h.header off ||| BitVec.ofNat 32 (2 * b2n h.aspmL1 + h.speed.toNat * 2 ^ 16 + h.width.toNat * 2 ^ 20))
  | 0x94 => (0x000333DF, 0x00000013)
  | 0x98 => (0xFFFFFFFF, tget 0 h.header off)
  | 0x9C => (0x000000FE, 0x0000001E)
  | 0x118 => (0x00000FFF, h.aerWord off)
  | 0x1B4 => (0xFFFFFFFF, 0x00000001)
  | 0x1B8 => (0x00000001, BitVec.ofNat 32 (b2n h.ptmEnable))
  | 0x1C4 => (0xFFFFFFFF, if bit (Config.pciWord p off) 16 then 0x00110A1F else 0x00500A1F)
  | 0x1C8 => (0x0000000F, h.l1ss.setWidth 32)
  | _ =>
    match extHeader off with
    | some w => (0xFFFFFFFF, w)
    | none => (0, 0)

/-- The offset is that of a word of Advanced Error Reporting that holds state alone: status, masks, severity, header log. -/
def aerStored (off : Nat) : Bool :=
  (decide (0x104 ≤ off) && decide (off ≤ 0x114)) || (decide (0x11C ≤ off) && decide (off ≤ 0x128))

/-- A word of the capabilities: its stated fields, or the stored word, and otherwise what the base specification fixes. -/
def HostPort.capWord (h : HostPort) (p off : Nat) : Word :=
  match capOf off with
  | none => 0
  | some _ =>
    if aerStored off then h.aerWord off
    else
      let x := h.capFields p off
      (Config.pciWord p off &&& ~~~ x.1) ||| (x.2 &&& x.1)

/-- A word of the configuration space of port p. -/
def State.cfgWord (s : State) (p off : Nat) : Word :=
  let h := s.port p
  let stored : Word := tget 0 h.header off
  match off with
  | 0x00 => 0x56181F5C
  | 0x04 => setFld (0x00100000 ||| stored) 2 2 (b2n h.busMaster)
  | 0x08 => 0x04010001
  | 0x10 => stored ||| 0x4
  | 0x18 => stored ||| 0xC
  | 0x2C =>
    (match s.record 1 with
     | some r => Config.subsystemIds r
     | none => 0x56181F5C)
  | 0x34 => 0x40
  | 0x78 => setFld (h.capWord p off) 21 21 (b2n ((List.range 4).any fun r => s.fetching p r))
  | _ => if off < 0x40 then stored else h.capWord p off

/-- The setting that an item of the configuration space holds. -/
def State.cfgRead (s : State) (p : Nat) (item : CfgItem) : Word :=
  let h := s.port p
  match item with
  | .ptmEnable => BitVec.ofNat 32 (b2n h.ptmEnable)
  | .busMasterEnable => BitVec.ofNat 32 (b2n h.busMaster)
  | .aspmL1 => BitVec.ofNat 32 (b2n h.aspmL1)
  | .l1ss => h.l1ss.setWidth 32
  | .msixFunctionMask => BitVec.ofNat 32 (b2n h.msixMaskAll)
  | .msixEnable => BitVec.ofNat 32 (b2n h.msixEnable)
  | .maxPayload => BitVec.ofNat 32 h.maxPayload
  | .maxReadRequest => BitVec.ofNat 32 h.maxRead
  | .header off => s.cfgWord p off

/-- Max_Payload_Size of n bytes, where R476 supports it. -/
def HostPort.setPayload (h : HostPort) (n : Nat) : HostPort := if n = 128 ∨ n = 256 then { h with maxPayload := n } else h

/-- Max_Read_Request_Size of n bytes, where R476 supports it. -/
def HostPort.setRead (h : HostPort) (n : Nat) : HostPort := if n = 128 ∨ n = 256 ∨ n = 512 then { h with maxRead := n } else h

/-- The power state that PowerState asks for: D0 or D3hot; D1 and D2 are not supported (R476, R501). -/
def HostPort.setPower (h : HostPort) (w : Word) : HostPort :=
  if fld w 1 0 = 0 then { h with d3hot := false } else if fld w 1 0 = 3 then { h with d3hot := true } else h

/-- Stores a word of the configuration space: its writable bits, and its status bits, which a 1 clears. -/
def HostPort.storeCfg (h : HostPort) (off : Nat) (rw w1c w : Word) : HostPort :=
  { h with header := tput 0 h.header off ((w &&& rw) ||| (tget 0 h.header off &&& w1c &&& ~~~ w)) }

/-- Device Control 2: a timeout range that R478 does not name leaves the one in force. -/
def HostPort.setTimeout (h : HostPort) (w : Word) : HostPort :=
  let v := if [0, 1, 2, 5, 6].contains (fld w 3 0) then w else setFld w 3 0 (fld (tget 0 h.header 0x98) 3 0)
  h.storeCfg 0x98 0x1F 0 v

/-- A word written whole: the writable bits of a stored word, and its status bits, which a 1 clears, and the settings that
capability words hold. Any other word is read-only. -/
def HostPort.wordWrite (h : HostPort) (off : Nat) (w : Word) : HostPort :=
  match off with
  | 0x04 => { h.storeCfg off (headerMask off) 0xF9000000 w with busMaster := bit w 2 }
  | 0x44 => h.setPower w
  | 0x50 => { h with msixEnable := bit w 31, msixMaskAll := bit w 30 }
  | 0x78 => ((h.storeCfg off 0x10F 0xF0000 w).setPayload (128 * 2 ^ fld w 7 5)).setRead (128 * 2 ^ fld w 14 12)
  | 0x80 => { h.storeCfg off 0xC8 0 w with aspmL1 := bit w 1 }
  | 0x98 => h.setTimeout w
  | 0x104 => h.setAer off (h.aerWord off &&& ~~~ w)
  | 0x108 => h.setAer off (w &&& 0x0017F010)
  | 0x10C => h.setAer off (w &&& 0x0017F010)
  | 0x110 => h.setAer off (h.aerWord off &&& ~~~ w)
  | 0x114 => h.setAer off (w &&& 0x000031C1)
  | 0x1B8 => { h with ptmEnable := bit w 0 }
  | 0x1C8 => { h with l1ss := w.setWidth 4 }
  | _ => if off < 0x40 then { h with header := tput 0 h.header off (w &&& headerMask off) } else h

/-- A port with an item of its configuration space written. Sizes are in bytes; one that R476 does not support leaves
the setting as it was (log entry 35). -/
def HostPort.cfgWrite (h : HostPort) (item : CfgItem) (w : Word) : HostPort :=
  match item with
  | .ptmEnable => { h with ptmEnable := bit w 0 }
  | .busMasterEnable => { h with busMaster := bit w 0 }
  | .aspmL1 => { h with aspmL1 := bit w 0 }
  | .l1ss => { h with l1ss := w.setWidth 4 }
  | .msixFunctionMask => { h with msixMaskAll := bit w 0 }
  | .msixEnable => { h with msixEnable := bit w 0 }
  | .maxPayload => h.setPayload w.toNat
  | .maxReadRequest => h.setRead w.toNat
  | .header off => h.wordWrite off w

/-- The write asks for a function-level reset: Initiate Function Level Reset (R476, R478). -/
def asksFlr (item : CfgItem) (w : Word) : Bool := decide (item = .header 0x78) && bit w 15

/-- A configuration request: it reaches the port while its link is up, in D3hot too, and vectors that may now be sent are
sent (R495, R619). -/
def State.configRequest (s : State) (p : Nat) (item : CfgItem) (w : Option Word) : State :=
  if (s.port p).link.up = false then s
  else
    let s := s.l1Exit p
    match w with
    | none => { s with resp := { value := (s.cfgRead p item).setWidth 64 } }
    | some v =>
      let t := (s.setPort p ((s.port p).cfgWrite item v)).flushVectors p
      { (if asksFlr item v then t.portFlr p else t) with resp := {} }

/-! ### PTM (R81, R498, R499) -/

/-- Adds one to half of HPx_PTM_STAT, saturating: OK at 0, FAIL at 16 (R499). -/
def State.ptmCount (s : State) (p lo : Nat) : State :=
  s.setRf (Reg.HPx_PTM_STAT p) (lo + 15) lo (min 0xFFFF (s.rf (Reg.HPx_PTM_STAT p) (lo + 15) lo + 1))

/-- A dialogue starts at every N_P-th strobe (R81): before the next strobe. -/
def State.ptmStart (s : State) (p : Nat) : State :=
  if s.ptmReady p && (s.hm p).due then
    (s.setHm p { s.hm p with dialogue := true, due := false }).send p .ptmRequest
  else s

/-- A dialogue ends with a response: its pair updates the mapping where the response reports a valid context (R498), and is a
measure of the port's candidate (R458). -/
def State.ptmPairIn (s : State) (p : Nat) (h e : Nat) (valid : Bool) : State :=
  if (s.hm p).dialogue = false then s
  else
    let s := s.setHm p { s.hm p with dialogue := false }
    if s.rf (Reg.EVT_HMAP_CTRL p) 2 1 ≠ 1 then s
    else if valid then
      State.pairSeen s ((s.ptmCount p 0).ptmUpdate p h e) p h e (s.ptmAnchors p h e)
    else s.ptmCount p 16

/-- A dialogue ends without a pair (R498). -/
def State.ptmTimeout (s : State) (p : Nat) : State :=
  if (s.hm p).dialogue then (s.setHm p { s.hm p with dialogue := false }).ptmCount p 16 else s

/-! ### The commands -/

/-- LINK_UP (R475). -/
def execLinkUp (p : Port) (width speed : BitVec 4) (s : State) : Host.Outcome State Fault Refusal :=
  doneIf (Instr.wf (.linkUp p width speed)) "LINK_UP" s (s.linkUp (Port.ix p) width speed)

/-- PORT_FLR (R503). -/
def execPortFlr (p : Port) (s : State) : Host.Outcome State Fault Refusal := done s (s.portFlr (Port.ix p))

/-- PORT_HOT_RESET (R503). -/
def execPortHotReset (p : Port) (s : State) : Host.Outcome State Fault Refusal := done s (s.portHotReset (Port.ix p))

/-- PORT_LINK_DOWN (R503). -/
def execPortLinkDown (p : Port) (s : State) : Host.Outcome State Fault Refusal := done s (s.portLinkDown (Port.ix p))

/-- PORT_PERST (R503). -/
def execPortPerst (p : Port) (s : State) : Host.Outcome State Fault Refusal := done s (s.portPerst (Port.ix p))

/-- PERST_N_RELEASE (R475). -/
def execPerstNRelease (p : Port) (s : State) : Host.Outcome State Fault Refusal := done s (s.perstRelease (Port.ix p))

/-- D3HOT_ENTRY (R501). -/
def execD3hotEntry (p : Port) (s : State) : Host.Outcome State Fault Refusal := done s (s.d3hotEntry (Port.ix p))

/-- D0_RETURN (R495, R501). -/
def execD0Return (p : Port) (s : State) : Host.Outcome State Fault Refusal := done s (s.d0Return (Port.ix p))

/-- L1_ENTRY (R500). -/
def execL1Entry (p : Port) (sub : Fin 3) (s : State) : Host.Outcome State Fault Refusal :=
  done s (s.l1Entry (Port.ix p) sub.val)

/-- L1_EXIT (R500). -/
def execL1Exit (p : Port) (s : State) : Host.Outcome State Fault Refusal := done s (s.l1Exit (Port.ix p))

/-- CONFIGURATION_REQUEST (R478). -/
def execConfigurationRequest (p : Port) (item : CfgItem) (write : Option Word) (s : State) :
    Host.Outcome State Fault Refusal :=
  doneIf (Instr.wf (.configurationRequest p item write)) "CONFIGURATION_REQUEST" s
    (s.configRequest (Port.ix p) item write)

/-- PTM_DIALOGUE_START (R81, R498). -/
def execPtmDialogueStart (p : Port) (s : State) : Host.Outcome State Fault Refusal := done s (s.ptmStart (Port.ix p))

/-- PTM_PAIR (R81, R498). -/
def execPtmPair (p : Port) (h e : Dword) (validContext : Bool) (s : State) : Host.Outcome State Fault Refusal :=
  done s (s.ptmPairIn (Port.ix p) h.toNat e.toNat validContext)

/-- PTM_TIMEOUT (R498). -/
def execPtmTimeout (p : Port) (s : State) : Host.Outcome State Fault Refusal := done s (s.ptmTimeout (Port.ix p))

/-- RING_DOORBELL (R484, R491): the write of HPx_RING_DB[r] by its host. -/
def execRingDoorbell (p : Port) (r : Fin 4) (v : Word) (s : State) : Host.Outcome State Fault Refusal :=
  done s (s.put32 (Port.req p) (Reg.HPx_RING_DB (Port.ix p) r.val) v)

/-- DESCRIPTOR_FETCH (R486, R491). -/
def execDescriptorFetch (p : Port) (r : Fin 4) (res : FetchResult) (s : State) : Host.Outcome State Fault Refusal :=
  doneIf (Instr.wf (.descriptorFetch p r res)) "DESCRIPTOR_FETCH" s (s.ringFetch (Port.ix p) r.val res)

/-- COMPLETION_WRITE (R487). -/
def execCompletionWrite (p : Port) (r : Fin 4) (s : State) : Host.Outcome State Fault Refusal :=
  done s (s.completionWrite (Port.ix p) r.val)

/-- COMPLETION_HEAD_WRITE (R484): the write of HPx_CPL_DB[r] by its host. -/
def execCompletionHeadWrite (p : Port) (r : Fin 4) (v : Word) (s : State) : Host.Outcome State Fault Refusal :=
  done s (s.put32 (Port.req p) (Reg.HPx_CPL_DB (Port.ix p) r.val) v)

/-- HPx_RING_CFG with EN and DEPTH. -/
def ringCfg (en : Bool) (depth : BitVec 4) : Word := BitVec.ofNat 32 (b2n en * 2 ^ 31 + depth.toNat)

/-- RING_ENABLE (R490, R523): EN := 1 with a DEPTH. -/
def execRingEnable (p : Port) (r : Fin 4) (depth : BitVec 4) (s : State) : Host.Outcome State Fault Refusal :=
  done s (s.put32 (Port.req p) (Reg.HPx_RING_CFG (Port.ix p) r.val) (ringCfg true depth))

/-- RING_DISABLE (R492): EN := 0 with a DEPTH. -/
def execRingDisable (p : Port) (r : Fin 4) (depth : BitVec 4) (s : State) : Host.Outcome State Fault Refusal :=
  done s (s.put32 (Port.req p) (Reg.HPx_RING_CFG (Port.ix p) r.val) (ringCfg false depth))

/-- IRQ_ENABLE_WRITE (R494). -/
def execIrqEnableWrite (p : Port) (v : Word) (s : State) : Host.Outcome State Fault Refusal :=
  done s (s.put32 (Port.req p) (Reg.HPx_IRQ_EN (Port.ix p)) v)

/-- SE_DOORBELL (R496): a Stage Engine rings a port. -/
def execSeDoorbell (e : Fin 2) (p : Port) (s : State) : Host.Outcome State Fault Refusal :=
  done s (s.put32 (seReq e.val) (Reg.HPx_SEDB (Port.ix p)) (onebit e.val))

/-- BAR0_REQUEST (R479, R513). -/
def execBar0Request (p : Port) (m : MemReq) (s : State) : Host.Outcome State Fault Refusal :=
  doneIf (Instr.wf (.bar0Request p m)) "BAR0_REQUEST" s (s.barRequest p false m)

/-- BAR2_REQUEST (R480, R351). -/
def execBar2Request (p : Port) (m : MemReq) (s : State) : Host.Outcome State Fault Refusal :=
  doneIf (Instr.wf (.bar2Request p m)) "BAR2_REQUEST" s (s.barRequest p true m)

end Sys2Proof.Machine
end

