-- ==== Sys2Proof/Machine/Program.lean ====
section
/-! DEFINITION. The Program Store and its directory: PROG_LOAD and PROG_REMOVE (R296 to R300, R522, R591, R592). -/

namespace Sys2Proof.Machine

/-- Bundles of the Program Store. -/
def storeBundles : Nat := 131072

/-- What the Program Store holds: first bundle and length of each program. -/
def State.storeUsed (s : State) : List (Nat × Nat) := s.progs.map fun e => (e.2.base, e.2.len)

/-- Free bundles of the Program Store. -/
def State.storeFree (s : State) : Nat := storeBundles - sumOf (fun e => e.2.len) s.progs

/-- The header of a program image is valid, its signature block's own header included (R296, R297, R589). -/
def State.progHeaderOk (s : State) (image : List Byte) : Bool :=
  let kind := leField image 0 2
  let len := leField image 2 2
  let cost := leField image 4 2
  let mem := leField image 6 2
  (decide (kind = 1) || decide (kind = 2)) && decide (1 ≤ len) && decide (len ≤ 4096) &&
    decide (1 ≤ cost) && decide (cost < s.vBudget) &&
    decide ((if kind = 1 then 5 else 1) ≤ mem) && decide (mem ≤ 2047) &&
    decide (leField image 8 2 < len) && decide (leField image 10 6 = 0)

/-- Programs in ascending order of BASE. -/
def insertBase (e : Nat × Prog) : List (Nat × Prog) → List (Nat × Prog)
  | [] => [e]
  | x :: l => if e.2.base < x.2.base then e :: x :: l else x :: insertBase e l

/-- A program moves down to bundle `dst` (R298). -/
def State.moveProg (s : State) (g : Nat) (p : Prog) (dst : Nat) : State :=
  let s := s.copyBytes (psBase + 8 * p.base) (psBase + 8 * dst) (8 * p.len)
  { s with progs := tins g { p with base := dst } s.progs }

/-- The stored programs move towards bundle 0, in ascending order of their BASE (R298). -/
def State.packStore (s : State) : State :=
  ((s.progs.foldr insertBase []).foldl
    (fun (r : State × Nat) e => (if e.2.base = r.2 then r.1 else r.1.moveProg e.1 e.2 r.2, r.2 + e.2.len)) (s, 0)).1

/-- A new program is stored, its image given, at the lowest free run, after a packing where there is none (R298). -/
def State.storeProg (s : State) (g : Nat) (image : List Byte) : State :=
  let len := leField image 2 2
  let s := if (freeRun s.storeUsed 0 storeBundles len).isSome then s else s.packStore
  match freeRun s.storeUsed 0 storeBundles len with
  | none => s
  | some base =>
    let p : Prog := {
      base := base, len := len, cost := leField image 4 2, kind := leField image 0 2, mem := leField image 6 2
      trap := leField image 8 2 }
    let s := s.setBytes (psBase + 8 * base) (slice image 16 (8 * len))
    { s with progs := tins g p s.progs }

/-- PROG_LOAD: the program stored, or the reason of its refusal in the order of R522. The words read are counted by their
bank (R363); storing them ends SLEEP (R614). -/
def State.progLoad (s : State) (agent g addr : Nat) : State × Nat :=
  if 1023 < g ∨ (s.prog g).isSome = true then (s, 3)
  else if 0x4000000 ≤ addr ∨ s.wsOwner (bankOf addr) ≠ agent then (s, 5)
  else
    let head := s.copySource agent true addr 16
    if s.progHeaderOk head = false then (s.wsCountSpan agent addr 16, 1)
    else
      let at_ := 16 + 8 * leField head 2 2
      let image := s.copySource agent true addr (at_ + 200)
      let s := s.wsCountSpan agent addr (at_ + 200)
      if sigHeaderOk (image.drop at_) = false then (s, 1)
      else if s.imageOk image at_ = false then (s.sigRej, 2)
      else if s.storeFree < leField head 2 2 then (s, 4)
      else ((s.sleepEnd.storeProg g image).measure (imageDigest image at_), 0)

/-- A part, an enabled fixed task, or a live context names program g (R299). -/
def State.progNamed (s : State) (g : Nat) : Bool :=
  (s.listed (Reg.VAL_PART_PROG 0) 1024 4).any (fun e => bit e.2 31 && decide (fld e.2 15 0 = g)) ||
  s.enabledTasks.any (fun t => decide (s.taskProg t = g)) ||
  s.ctxs.any (fun e => e.2.placed && decide (e.2.prog = g))

/-- A task of program g under another name for its program. -/
def Task.renamed (g k : Nat) (t : Task) : Task := if t.prog = g then { t with prog := k } else t

/-- A running or saved task under another name for its program. -/
def TaskRun.renamed (g k : Nat) (r : TaskRun) : TaskRun := { r with task := r.task.renamed g k }

/-- A name, beyond the program numbers, for the copy of a removed program that tasks of a core still use (R169). -/
def Core.oldName (c : Core) (g : Nat) : Nat := g + 1024 * (maxOf (fun r => r.prog / 1024) c.resident + 1)

/-- The resident copy of a removed program is dropped; one that tasks of its core still use stays for those alone, under a name
that no program has, so that a program stored under the number later is loaded anew (R169, R321). -/
def dropResident (g : Nat) (c : Core) : Core :=
  if (c.list.any fun t => decide (t.prog = g)) || c.active.any fun r => decide (r.task.prog = g) then
    let k := c.oldName g
    { c with
      list := c.list.map (Task.renamed g k)
      run := c.run.map (TaskRun.renamed g k)
      saved := c.saved.map (TaskRun.renamed g k)
      resident := c.resident.map fun r => if r.prog = g then { r with prog := k } else r }
  else { c with resident := c.resident.filter fun r => decide (r.prog ≠ g) }

/-- PROG_REMOVE: the program removed, which ends SLEEP, or the reason of its refusal (R299, R522, R614). -/
def State.progRemove (s : State) (g : Nat) : State × Nat :=
  if (s.prog g).isNone then (s, 3)
  else if s.progNamed g then (s, 6)
  else
    let s := s.sleepEnd
    let t : State := { s with progs := tdel g s.progs }
    (t.cores.foldl (fun t e => t.setCore e.1 (dropResident g e.2)) t, 0)

end Sys2Proof.Machine
end

