-- ==== Sys2Proof/Machine/RingCmd.lean ====
section
/-! DEFINITION. The commands of the rings (R516 to R522): each executes the oldest fetched descriptor of its ring when
that carries its CODE, or when the descriptor's check fails (R523). -/

namespace Sys2Proof.Machine

/-- BADCMD: COUNT out of range or a reserved byte not zero (R514, R521). -/
def badCmd (d : List Byte) (lo hi used : Nat) : Bool :=
  decide (countOf d < lo) || decide (hi < countOf d) || !restZero d used

/-- The outcome of a command that BADCMD turns away. -/
def badOut (s : State) : State × CmdOut := (s, .done 2 0 0)

/-- EVT source of ring r of port p (R55). -/
def ringSource (p r : Nat) : Nat := 4 * p + r

/-- A 128-bit native event of a descriptor. -/
def nativeAt (d : List Byte) (i : Nat) : BitVec 128 := BitVec.ofNat 128 (leField d (8 + 16 * i) 16)

/-- Word i of a payload that starts at byte `at_`. -/
def wordAt (d : List Byte) (at_ i : Nat) : Word := BitVec.ofNat 32 (leField d (at_ + 4 * i) 4)

/-- EVENTS (R516, R56): all its events enter together, once there is room. -/
def runEvents (p r : Nat) (d : List Byte) (s : State) : State × CmdOut :=
  let n := countOf d
  if badCmd d 1 3 (16 * n) then badOut s
  else if s.evtRoom (ringSource p r) n then
    (iter (fun i t => t.takeNative (ringSource p r) (nativeAt d i)) 0 n s, .done 0 0 0)
  else (s, .hold)

/-- UMPS (R516, R56, R518). -/
def runUmps (p r : Nat) (d : List Byte) (s : State) : State × CmdOut :=
  let n := countOf d
  if badCmd d 1 10 (8 + 4 * n) then badOut s
  else
    match umpPackets n ((List.range n).map (wordAt d 0x10)) with
    | none => badOut s
    | some ps =>
      if s.evtRoom (ringSource p r) ps.length then
        (ps.foldl (fun t w => t.takeUmp (ringSource p r) (leField d 8 8) w.1 w.2) s, .done 0 0 0)
      else (s, .hold)

/-- What the items of a command have come to: the state, and index and cause of the first refused. -/
structure Items where
  state : State
  index : Nat := 0
  bad   : Option (Nat × Nat) := none

/-- One more item, refused where its cause is not 0. -/
def Items.add (x : Items) (t : State) (cause : Nat) : Items :=
  { state := t, index := x.index + 1
    bad := if cause ≠ 0 ∧ x.bad.isNone = true then some (x.index, cause) else x.bad }

/-- The outcome of the items: OK, or REFUSED with the first refused one. -/
def Items.out (x : Items) : State × CmdOut :=
  match x.bad with
  | none => (x.state, .done 0 0 0)
  | some (i, c) => (x.state, .done 3 i c)

/-- A direct 32-bit write by a requester at a device address (R517): of a register, or of a node or string word, in an
arbitration slot of its own. No requester reaches another memory by this path (R349, R673). -/
def State.write32 (s : State) (q : Req) (a : Nat) (w : Word) : Nat × State :=
  let bar2 := !isCsr a
  if regionOf a = .nothing ∨ (isCsr a = true ∧ holdsWord a = false) then (3, s.refuse q true bar2 a 3)
  else if a % 4 ≠ 0 then (2, s.refuse q true bar2 a 2)
  else if isCsr a = false ∧ tableWord a = false then (1, s.refuse q true bar2 a 1)
  else
    let x := s.arbitrate { req := q, write := true, bar2 := bar2, lanes := lanesOf a 4 w.toNat }
    (x.cause, x.state)

/-- WRITE32 (R517). A pair whose address lies in a table that is being cleared holds the command (R356). -/
def runWrite32 (p : Port) (d : List Byte) (s : State) : State × CmdOut :=
  let n := countOf d
  if badCmd d 1 6 (8 * n) then badOut s
  else if (List.range n).any fun i => tableWord (wordAt d 8 (2 * i)).toNat && s.stalls (Port.req p) (wordAt d 8 (2 * i)).toNat then (s, .hold)
  else
    ((List.range n).foldl (fun (x : Items) i =>
      let r := x.state.write32 (Port.req p) (wordAt d 8 (2 * i)).toNat (wordAt d 8 (2 * i + 1))
      x.add r.2 r.1) { state := s }).out

/-- TXN_STAGE (R533, R534): a refused entry does not stop the entries after it. -/
def runTxnStage (p : Port) (d : List Byte) (s : State) : State × CmdOut :=
  let n := countOf d
  let i := Port.ix p
  if badCmd d 1 6 (8 * n) then badOut s
  else if (s.txn i).st ≠ .opened then (s, .done 5 0 (s.txn i).st.code)
  else
    ((List.range n).foldl (fun (x : Items) k =>
      let a := (wordAt d 8 (2 * k + 1)).toNat
      let c := x.state.stageCause i a
      x.add ((x.state.stage i a (wordAt d 8 (2 * k))).refuse (Port.req p) true (!isCsr a) a c) c) { state := s }).out

/-- TXN_COMMIT (R516, R535): it completes when its check ends. -/
def runTxnCommit (p : Port) (r : Nat) (d : List Byte) (s : State) : State × CmdOut :=
  let i := Port.ix p
  if badCmd d 0 0 8 then badOut s
  else if (s.txn i).st ≠ .opened then (s, .done 5 0 (s.txn i).st.code)
  else (s.txnCommit i (BitVec.ofNat 64 (leField d 8 8)) (some r), .busy)

/-- TXN_ABORT (R516, R531). -/
def runTxnAbort (p : Port) (d : List Byte) (s : State) : State × CmdOut :=
  let i := Port.ix p
  if badCmd d 0 0 0 then badOut s
  else if (s.txn i).st.holds = false then (s, .done 5 0 (s.txn i).st.code)
  else (s.txnAbandon i, .done 0 0 0)

/-- The outcome of a program command. -/
def progOut (r : State × Nat) : State × CmdOut := (r.1, if r.2 = 0 then .done 0 0 0 else .done 0x10 r.2 0)

/-- PROG_LOAD (R516, R522). An image address that is not a multiple of 8 is BADCMD (log entry 34). -/
def runProgLoad (p : Port) (d : List Byte) (s : State) : State × CmdOut :=
  let a := leField d 0xC 4
  if badCmd d 0 0 8 ∨ leField d 0xA 2 ≠ 0 ∨ a % 8 ≠ 0 then badOut s
  else if s.stalls (Port.req p) a then (s, .hold)
  else progOut (s.progLoad (Req.agent (Port.req p)) (leField d 8 2) a)

/-- PROG_REMOVE (R516, R299). -/
def runProgRemove (d : List Byte) (s : State) : State × CmdOut :=
  if badCmd d 0 0 2 then badOut s else progOut (s.progRemove (leField d 8 2))

/-- The CODEs that R516 defines. -/
def codes : List Nat := [0x00, 0x01, 0x02, 0x10, 0x20, 0x21, 0x22, 0x30, 0x31]

/-- COMMAND_NOP: CODE 0x00, and every undefined CODE, which completes with BADCMD (R521; log entry 34). -/
def execCommandNop (p : Port) (r : Fin 4) (s : State) : Host.Outcome State Fault Refusal :=
  done s <| s.ringRun (Port.ix p) r.val (fun c => decide (c = 0) || !codes.contains c) fun d t =>
    if codeOf d ≠ 0 ∨ badCmd d 0 0 0 = true then badOut t else (t, .done 0 0 0)

/-- EVENTS (R56). -/
def execEvents (p : Port) (r : Fin 4) (s : State) : Host.Outcome State Fault Refusal :=
  done s <| s.ringRun (Port.ix p) r.val (fun c => c == 0x01) (runEvents (Port.ix p) r.val)

/-- UMPS (R56). -/
def execUmps (p : Port) (r : Fin 4) (s : State) : Host.Outcome State Fault Refusal :=
  done s <| s.ringRun (Port.ix p) r.val (fun c => c == 0x02) (runUmps (Port.ix p) r.val)

/-- WRITE32 (R517). -/
def execWrite32 (p : Port) (r : Fin 4) (s : State) : Host.Outcome State Fault Refusal :=
  done s <| s.ringRun (Port.ix p) r.val (fun c => c == 0x10) (runWrite32 p)

/-- TXN_STAGE (R533). -/
def execTxnStage (p : Port) (r : Fin 4) (s : State) : Host.Outcome State Fault Refusal :=
  done s <| s.ringRun (Port.ix p) r.val (fun c => c == 0x20) (runTxnStage p)

/-- TXN_COMMIT (R535). -/
def execTxnCommit (p : Port) (r : Fin 4) (s : State) : Host.Outcome State Fault Refusal :=
  done s <| s.ringRun (Port.ix p) r.val (fun c => c == 0x21) (runTxnCommit p r.val)

/-- TXN_ABORT (R531). -/
def execTxnAbort (p : Port) (r : Fin 4) (s : State) : Host.Outcome State Fault Refusal :=
  done s <| s.ringRun (Port.ix p) r.val (fun c => c == 0x22) (runTxnAbort p)

/-- PROG_LOAD (R297, R298). -/
def execProgLoad (p : Port) (r : Fin 4) (s : State) : Host.Outcome State Fault Refusal :=
  done s <| s.ringRun (Port.ix p) r.val (fun c => c == 0x30) (runProgLoad p)

/-- PROG_REMOVE (R299). -/
def execProgRemove (p : Port) (r : Fin 4) (s : State) : Host.Outcome State Fault Refusal :=
  done s <| s.ringRun (Port.ix p) r.val (fun c => c == 0x31) runProgRemove

end Sys2Proof.Machine
end

