-- ==== Sys2Proof/Machine/SchedCmd.lean ====
section
/-! DEFINITION. What the Puppeteer, the collector port and the recovery kernel do in their own time: migration,
readiness, dispatch, pre-emption, residency, the end of a task (R245, R312 to R325, R332, R365, R366). The Puppeteer
and the cores are gated in SLEEP (R613). -/

namespace Sys2Proof.Machine

/-- The end of the strain of core n, 16 blocks after its last miss or drop (R332). -/
def State.strainEnd (s : State) (n : Nat) : State :=
  if s.strained n then s else s.setCore n { s.core n with strain := 0 }

/-- The recovery kernel of a core ends: VE0 to VE63 by the result given; a Stage Engine by R419, R420. -/
def State.kernelEnd (s : State) (c : Nat) (pass : Bool) : State :=
  if c < 64 then s.veRecovered c pass else s.seKernelEnd (c - 64) pass

/-- MIGRATION_COPY (R325 step 2). -/
def execMigrationCopy (v : Fin 8192) (s : State) : Host.Outcome State Fault Refusal :=
  done s (s.whenRunning (s.migrationCopy v.val))

/-- MIGRATION_COPY_DONE (R325 step 3). -/
def execMigrationCopyDone (v : Fin 8192) (s : State) : Host.Outcome State Fault Refusal :=
  done s (s.whenRunning (s.migrationDone v.val))

/-- STRAIN_EXPIRY (R332). -/
def execStrainExpiry (n : Fin 64) (s : State) : Host.Outcome State Fault Refusal :=
  done s (s.whenRunning (s.strainEnd n.val))

/-- TASK_READY (R312). -/
def execTaskReady (n : Fin 64) (tag : BitVec 16) (s : State) : Host.Outcome State Fault Refusal :=
  done s (s.whenRunning (s.readyTag n.val tag))

/-- DISPATCH (R314). -/
def execDispatch (n : Fin 64) (s : State) : Host.Outcome State Fault Refusal :=
  done s (s.whenRunning (s.dispatchOn n.val))

/-- PREEMPT (R206, R315). -/
def execPreempt (n : Fin 64) (s : State) : Host.Outcome State Fault Refusal :=
  done s (s.whenRunning (s.preemptOn n.val))

/-- RESIDENCY_LOAD_DONE (R321). -/
def execResidencyLoadDone (n : Fin 64) (g : Fin 1024) (s : State) : Host.Outcome State Fault Refusal :=
  done s (s.whenRunning (s.loadDone n.val g.val))

/-- RECOVERY_KERNEL_DONE (R245, R246, R419, R420). -/
def execRecoveryKernelDone (c : Fin 66) (pass : Bool) (s : State) : Host.Outcome State Fault Refusal :=
  done s (s.whenRunning (s.kernelEnd c.val pass))

/-- TASK_COMPLETION (R205, R365). -/
def execTaskCompletion (n : Fin 64) (s : State) : Host.Outcome State Fault Refusal :=
  done s (s.whenRunning (s.veComplete n.val))

/-- CONTRIBUTION_ACCEPT (R366). -/
def execContributionAccept (n : Fin 64) (s : State) : Host.Outcome State Fault Refusal :=
  done s (s.whenRunning (s.veDeliver n.val))

end Sys2Proof.Machine
end

