-- ==== Sys2Proof/Machine/StageRun.lean ====
section
/-! DEFINITION. The issue of bundles on the Stage Engines: their own memory and the device addresses they reach
(R398 to R403), and the commands of the cores: issue, wave fetches, window traps, trap entry, faults, loads and the
Stage Engines' restarts and wakes. -/

namespace Sys2Proof.Machine

/-! ### Addresses (R398, R399) -/

/-- The engine's own data region, and its trap area while SR.TM = 1. -/
def seOwn (e : Nat) (tm : Bool) (a size : Nat) : Bool :=
  inside (seBase e + 0xA000) (seBase e + 0x40000) a size || inTrapArea tm (seBase e) a size

/-- The device addresses that a load or a store may name. -/
def seDevice (store : Bool) (a size : Nat) : Bool :=
  inside 0 0x04000000 a size || inside 0x05000000 0x05C00000 a size || inside 0x07000000 0x07200000 a size ||
    (!store && inside 0x08000000 0x08080000 a size)

/-- An access to a device address as engine e makes it: its accesses in order, judged like a requester's (R401, R509). -/
def State.seServe (s : State) (e : Nat) (store : Bool) (a size : Nat) (v : Dword) : Served :=
  s.serve (seReq e) store true false (accessesOf true (lanesOf a size v.toNat))

/-- The device accepts the access. -/
def State.seAccepts (s : State) (e : Nat) (store : Bool) (a size : Nat) (v : Dword) : Bool :=
  seDevice store a size && decide ((s.seServe e store a size v).cause = 0)

/-- The physical Wave Store address that a fetch of a Stage Engine reads: in a bank of agent SE (R192, R349). -/
def State.seWave (s : State) (e v : Nat) : Option Nat :=
  if v < 0x04000000 ∧ s.wsOwner (bankOf v) = Req.agent (seReq e) then some v else none

/-- The surroundings of the program on engine e. -/
def State.seEnv (s : State) (e : Nat) (r : TaskRun) : Env :=
  { se := true
    pfrOk := false
    len := (s.stg e).len
    trap := (s.stg e).trap
    pfr := fun _ => 0
    loadOk := fun a k => seOwn e r.arch.tm a k || s.seAccepts e false a k 0
    storeOk := fun a k v => seOwn e r.arch.tm a k || s.seAccepts e true a k v
    wave := s.seWave e
    fifth := r.fifth }

/-! ### Effects -/

/-- The words that a device load writes when it arrives. -/
def dstWords (d : Dst) (v : Dword) : List (Nat × Dword) :=
  match d with
  | .none => []
  | .g p => [(p, v)]
  | .z re im => [(re, v), (im, v >>> 32)]
  | .acc key hi => [(1000 + 2 * key + b2n hi, v)]

/-- One arrived word is written. -/
def Arch.stallWord (a : Arch) (x : Nat × Dword) : Arch :=
  if x.1 < 1000 then a.loaded (.g x.1) x.2 else a.loaded (.acc ((x.1 - 1000) / 2) (decide (x.1 % 2 = 1))) x.2

/-- What the accesses of a bundle leave: the state, the registers, the loads still to arrive. -/
structure SeMoved where
  state : State
  arch  : Arch
  stall : List (Nat × Dword) := []

/-- One access of a bundle on engine e: the engine's own memory is read as it stood before the bundle (R160), a device
load's value arrives later (R402). -/
def seMove (old : State) (e : Nat) (tm : Bool) (m : SeMoved) (x : Option MemAccess) : SeMoved :=
  match x with
  | none => m
  | some x =>
    if seOwn e tm x.addr x.size then
      if x.store then
        { m with state := if x.size = 8 then m.state.setDword x.addr x.data
                          else m.state.setWord x.addr (x.data.setWidth 32) }
      else
        let v := if x.size = 8 then old.dword x.addr else (old.word x.addr).setWidth 64
        { m with arch := m.arch.loaded x.dst v }
    else
      let r := m.state.seServe e x.store x.addr x.size x.data
      if x.store then { m with state := r.state }
      else { m with state := r.state, stall := m.stall ++ dstWords x.dst (BitVec.ofNat 64 (leNat (r.bytes.map (·.2)))) }

/-- A slot's access waits for a Wave Store bank (R344, R356). -/
def State.seHeld (s : State) (e : Nat) (x : Option MemAccess) : Bool :=
  match x with
  | none => false
  | some x => s.stalls (seReq e) x.addr

/-- The bundle waits for a Wave Store bank: a drain or a clear is under way (R344, R356). -/
def State.seWaits (s : State) (e : Nat) (p : Slots) : Bool :=
  s.seHeld e p.ma.access || s.seHeld e p.mb.access ||
    (match p.ma.wf with
     | none => false
     | some f => f.addrs.any fun a => s.stalls (seReq e) a)

/-- The refusal that a device address records beside the fault it raises: WS_CNT_REFUSED of a bank (R340), OVF of a
full transaction (R533). A split access leaves none. -/
def State.seRefusal (s : State) (e : Nat) (x : MemAccess) : State :=
  if x.addr % x.size = 0 ∧ seDevice x.store x.addr x.size ∧
      (accessesOf true (lanesOf x.addr x.size 0)).length = 1 then
    (s.seServe e x.store x.addr x.size x.data).state
  else s

/-- What the bundle at the PC leaves in the device when it faults: the refusal of the access, or of the wave fetch, that
raised the fault. -/
def State.seRefused (s : State) (e : Nat) (r : TaskRun) (w : Nat) : State :=
  let env := s.seEnv e r
  if env.len ≤ r.arch.pc then s
  else
    let p := slotsOf r.arch env w
    match p.fault env r.lanes with
    | none => s
    | some i =>
      if i.code = 4 then
        match p.ma.access, p.mb.access with
        | some x, y =>
          if accessFault env (some x) = some 4 then s.seRefusal e x
          else ((y.map fun z => s.seRefusal e z)).getD s
        | none, some y => s.seRefusal e y
        | none, none => s
      else if i.code = 5 ∧ i.addr < 0x04000000 ∧ (env.wave i.addr).isNone = true then s.wsRefuse (bankOf i.addr)
      else s

/-- Stores the running program of engine e, if the engine still runs: its own accesses may have stopped it. -/
def State.putSe (s : State) (e : Nat) (r : TaskRun) : State :=
  let g := s.stg e
  if g.st.running then
    s.setStg e { g with tr := some r, st := if g.st = .wait then .wait else if r.arch.tm then .trap else .run }
  else s

/-- TEND has been met and nothing is outstanding: the program stops (R410). -/
def State.seEnd (s : State) (e : Nat) : State :=
  let g := s.stg e
  match g.tr with
  | none => s
  | some r => if r.ended.isSome ∧ r.fetches = [] ∧ g.stall = none then s.stgRest e .stopped else s

/-- YIELD: the engine waits unless a cause it enables is pending (R409). -/
def State.seYield (s : State) (e : Nat) (yielded : Bool) : State :=
  if yielded = true ∧ (s.stg e).st.running = true ∧ s.stgWakeDue e = false then
    s.setStg e { s.stg e with st := .wait }
  else s

/-- Engine e issues the bundle at its PC. -/
def State.seIssue (s : State) (e : Nat) : State :=
  let g := s.stg e
  match g.tr with
  | none => s
  | some r =>
    if (g.st ≠ .run ∧ g.st ≠ .trap) ∨ r.ended.isSome ∨ r.pend ≠ .none ∨ g.stall ≠ none then s
    else
      let env := s.seEnv e r
      let wp := s.free 3
      let w := (s.dword (seBase e + 0x2000 + 8 * r.arch.pc)).toNat
      match issue r.arch env r.lanes r.fetches wp.1.toNat w with
      | .wait =>
        s.putSe e { r with fifth := (slotsOf r.arch env w).isFifth r.fetches r.fifth }
      | .fault tpc tnpc tc ta => (s.seRefused e r w).putSe e { r with pend := .fault tpc tnpc tc ta }
      | .halt tpc tnpc tc ta => (s.seRefused e r w).stgFault e true tpc tnpc tc ta
      | .done a p =>
        if s.seWaits e p then s
        else
          let f := s.startFetch env p
          let t : State := if p.fl.flow = .rte then { f.2 with draw := wp.2.draw } else f.2
          let m := seMove s e r.arch.tm (seMove s e r.arch.tm { state := t, arch := a } p.ma.access) p.mb.access
          let t := m.state.putSe e (r.issued m.arch p f.1)
          let t := if m.stall ≠ [] ∧ (t.stg e).st.running = true then t.setStg e { t.stg e with stall := some m.stall } else t
          (t.seYield e (decide (p.fl.flow = .yield))).seEnd e

/-- A device load's value arrives and the stall ends (R402). -/
def State.seArrive (s : State) (e : Nat) : State :=
  let g := s.stg e
  match g.tr, g.stall with
  | some r, some l =>
    (s.setStg e { g with stall := none, tr := some { r with arch := l.foldl Arch.stallWord r.arch } }).seEnd e
  | _, _ => s

/-- A wave fetch of engine e arrives (R194). -/
def State.seFetched (s : State) (e k : Nat) : State :=
  match (s.stg e).tr with
  | none => s
  | some r =>
    match r.fetches[k]? with
    | none => s
    | some f =>
      let q := s.finishFetch f
      (q.2.setStg e { q.2.stg e with tr := some (r.arrive k q.1) }).seEnd e

/-- Nothing that the spill engine or a trap waits for is outstanding (R230, R236, R402). -/
def Stage.settled (g : Stage) (r : TaskRun) : Bool := decide (r.fetches = []) && decide (g.stall = none)

/-- The spill engine services a window overflow of engine e (R227, R400). -/
def State.seOverflow (s : State) (e : Nat) : State :=
  let g := s.stg e
  match g.tr with
  | none => s
  | some r =>
    if r.pend = .overflow ∧ g.settled r then
      let t := (r.arch.window0.zipIdx).foldl (fun t x => t.setWord (seBase e + 64 * r.arch.sd + 4 * x.2) x.1) s
      t.setStg e { g with tr := some { r with arch := r.arch.overflow, pend := .none } }
    else s

/-- The spill engine services a window underflow of engine e (R228, R400). -/
def State.seUnderflow (s : State) (e : Nat) : State :=
  let g := s.stg e
  match g.tr with
  | none => s
  | some r =>
    if r.pend = .underflow ∧ g.settled r then
      let w := (List.range 16).map fun i => s.word (seBase e + 64 * (r.arch.sd - 1) + 4 * i)
      s.setStg e { g with tr := some { r with arch := r.arch.underflow w, pend := .none } }
    else s

/-- A fault on engine e enters the program's handler (R236, R400, R418). -/
def State.seTrap (s : State) (e : Nat) : State :=
  let g := s.stg e
  match g.tr with
  | none => s
  | some r =>
    match r.pend with
    | .fault tpc tnpc tc ta =>
      if g.trap ≠ 0 ∧ g.settled r then
        s.putSe e { r with arch := r.arch.enterTrap g.trap (seBase e) tpc tnpc tc ta, pend := .none }
      else s
    | _ => s

/-- A fault on engine e has no handler (R418). -/
def State.seNoHandler (s : State) (e : Nat) : State :=
  let g := s.stg e
  match g.tr with
  | none => s
  | some r =>
    match r.pend with
    | .fault tpc tnpc tc ta => if g.trap = 0 ∧ g.settled r then s.stgFault e false tpc tnpc tc ta else s
    | _ => s

/-! ### The commands of the cores: 0 to 63 are the Voice Engines, 64 and 65 the Stage Engines -/

/-- BUNDLE_ISSUE (R172). -/
def execBundleIssue (c : Fin 66) (s : State) : Host.Outcome State Fault Refusal :=
  done s (s.whenRunning (if c.val < 64 then s.veIssue c.val else s.seIssue (c.val - 64)))

/-- WAVE_FETCH_ARRIVAL (R194): the k-th outstanding fetch of the running program. -/
def execWaveFetchArrival (c : Fin 66) (k : Fin 4) (s : State) : Host.Outcome State Fault Refusal :=
  done s (s.whenRunning (if c.val < 64 then s.veArrive c.val k.val else s.seFetched (c.val - 64) k.val))

/-- WINDOW_OVERFLOW_TRAP (R227, R230). -/
def execWindowOverflowTrap (c : Fin 66) (s : State) : Host.Outcome State Fault Refusal :=
  done s (s.whenRunning (if c.val < 64 then s.veOverflow c.val else s.seOverflow (c.val - 64)))

/-- WINDOW_UNDERFLOW_TRAP (R228, R230). -/
def execWindowUnderflowTrap (c : Fin 66) (s : State) : Host.Outcome State Fault Refusal :=
  done s (s.whenRunning (if c.val < 64 then s.veUnderflow c.val else s.seUnderflow (c.val - 64)))

/-- TRAP_ENTRY (R236). -/
def execTrapEntry (c : Fin 66) (s : State) : Host.Outcome State Fault Refusal :=
  done s (s.whenRunning (if c.val < 64 then s.veTrap c.val else s.seTrap (c.val - 64)))

/-- FAULT_WITHOUT_HANDLER (R243, R418). -/
def execFaultWithoutHandler (c : Fin 66) (s : State) : Host.Outcome State Fault Refusal :=
  done s (s.whenRunning (if c.val < 64 then s.veNoHandler c.val else s.seNoHandler (c.val - 64)))

/-- SE_LOAD_ARRIVAL (R402). -/
def execSeLoadArrival (e : Fin 2) (s : State) : Host.Outcome State Fault Refusal :=
  done s (s.whenRunning (s.seArrive e.val))

/-- STG_LOAD_DONE (R405). -/
def execStgLoadDone (e : Fin 2) (s : State) : Host.Outcome State Fault Refusal :=
  done s (s.whenRunning (s.stgLoadDone e.val))

/-- STG_AUTO_RESTART (R419). -/
def execStgAutoRestart (e : Fin 2) (s : State) : Host.Outcome State Fault Refusal :=
  done s (s.whenRunning (s.stgRestart e.val))

/-- STG_WAKE_RESUME (R409). -/
def execStgWakeResume (e : Fin 2) (s : State) : Host.Outcome State Fault Refusal :=
  done s (s.whenRunning (s.stgWake e.val))

end Sys2Proof.Machine
end

