-- ==== Sys2Proof/Machine/Start.lean ====
section
/-! DEFINITION. Start-up and the power states as commands: from the wake to the self-test, the records, the sag levels,
SLEEP and OFF (R356, R593, R608 to R627, R642 to R644). -/

namespace Sys2Proof.Machine

/-! ### Steps 1 to 3 of R617 -/

/-- Step 1: the device leaves OFF; PWR_STAT.WAKE takes the cause, 1 power-on or 2 WAKE_N (R616). -/
def State.leaveOff (s : State) (wake : Nat) : State :=
  if s.phase = .off then ({ s with phase := .waitPgood, psuEn := true } : State).setRf Reg.PWR_STAT 22 21 wake else s

/-- WAKE_N has been low for 10 µs: it ends OFF, or SLEEP; in RUN it has no effect (R614, R616). -/
def State.wakeN (s : State) : State :=
  match s.phase with
  | .off => s.leaveOff 2
  | .sleep => s.sleepEnd
  | _ => s

/-- Step 2: PGOOD is high and the crystal oscillator starts. -/
def State.pgoodRise (s : State) : State := if s.phase = .waitPgood then { s with phase := .waitCrystal } else s

/-- PGOOD has not risen within 50 ms: the device returns to OFF. -/
def State.pgoodLate (s : State) : State := if s.phase = .waitPgood then s.powerDown else s

/-- Step 3: the clocks start, the clear of R356 begins, every record is checked before its use (R632), and SEC runs its first
steps (R593). -/
def State.crystalUp (s : State) : State :=
  if s.phase = .waitCrystal then
    (({ s with phase := .waitRecords } : State).tornCheck.secBoot.setRf Reg.WS_STAT 16 16 1).dacClrSample
  else s

/-! ### Step 4: the records (R437, R642, R643) -/

/-- The trims of a converter channel: DCAL's for the channels whose bit its first byte sets, else FCAL's, else 0. -/
def State.trimOf (s : State) (c : Nat) : Word :=
  match s.record 3, s.record 1 with
  | some d, some f => if ((d.headD 0).toNat / 2 ^ c) % 2 = 1 then Config.dcalTrim d c else Config.fcalTrim f c
  | some d, none => if ((d.headD 0).toNat / 2 ^ c) % 2 = 1 then Config.dcalTrim d c else 0
  | none, some f => Config.fcalTrim f c
  | none, none => 0

/-- DAC_CH_CAL[c] takes the trims of channel c. -/
def State.trimLoad (c : Nat) (s : State) : State := s.setReg (Reg.DAC_CH_CAL c) (s.trimOf c)

/-- On the PV8K1-C, DAC_CH_PUF[c] takes its codes from the code record, four bytes a channel. -/
def State.codeLoad (s : State) : State :=
  match s.variant with
  | .f => s
  | .c =>
    match s.record 4 with
    | some l => iter (fun c t => t.setReg (Reg.DAC_CH_PUF c) (BitVec.ofNat 32 (leNat ((l.drop (4 * c)).take 4)))) 0 4 s
    | none => iter (fun c t => t.setReg (Reg.DAC_CH_PUF c) 0) 0 4 s

/-- The kept fields take the values of the retained set, or stay at their Power-on values (R642). -/
def State.restoreSet (s : State) : State :=
  match s.validRset with
  | some l => (s.restoreKept l).setRf Reg.NVM_STAT 7 7 0
  | none => s.setRf Reg.NVM_STAT 7 7 1

/-- NCL_NOW is set from NCL (R617, R620). -/
def State.setNcl (s : State) : State := s.setRf Reg.PWR_OPP 7 4 (s.rf Reg.PWR_OPP 3 0)

/-- The filters of the restored settings are in force (R430): no channel has another before. -/
def State.dacRestored (s : State) : State :=
  iter (fun c t => t.setDacCh c { t.dacCh c with filt := t.rf (Reg.DAC_GCFG (dacGroup c)) 1 0 }) 0 s.dacChannels s

/-- Step 4: the records are in force and the host ports are released (R475, R617). -/
def State.recordsIn (s : State) : State :=
  if s.phase = .waitRecords then
    let t := s.restoreSet.setNcl.codeLoad.dacRestored
    let t := (iter State.trimLoad 0 t.dacChannels t).agehLoad
    let t := iter (fun p t => t.setPort p { t.port p with released := true }) 0 2 t
    { t with phase := .waitSec }
  else s

/-! ### Steps 5 and 6 -/

/-- Core n stands in an enabled cluster (R620). -/
def State.coreEnabled (s : State) (n : Nat) : Bool := decide (n / 8 < s.nclNow)

/-- Step 5 on one core: the self-test kernel starts, or the core stays OFF and out of service (R617, R620). -/
def State.selfTestStart (n : Nat) (s : State) : State :=
  if s.coreEnabled n then s.setCore n { s.core n with st := .run, kernel := some 2, oos := false }
  else s.setCore n { s.core n with st := .off, oos := true }

/-- Step 5: SEC releases start-up (R593). The self-test kernels run, the sentinels are measured, and the boot loads of the
Stage Engines start. -/
def State.secReleases (s : State) : State :=
  if s.phase = .waitSec ∧ s.sec.booted then
    let t := iter State.selfTestStart 0 64 ({ s with phase := .selfTest } : State)
    let t := t.setAge { t.age with startup := true }
    iter State.stgBoot 0 2 t.ageStart
  else s

/-- The self-test kernel of core n ends: IDLE, or out of service, with the cause of vector 25 (R246, R493, R617). It issues 96,000 bundles. -/
def State.selfTestEnd (failed : BitVec 64) (n : Nat) (s : State) : State :=
  let c := s.core n
  if c.kernel = some 2 then
    if failed.getLsbD n then
      (s.setCore n { c with st := .off, oos := true, kernel := none, bundles := c.bundles + 96000 }).causeBoth 25
    else s.setCore n { c with st := .idle, kernel := none, bundles := c.bundles + 96000 }
  else s

/-- Step 6, once step 5 has ended, its self-test and its plan: MCK_CTRL.EN is set. DESIGN CHOICE, unsafe: the budget is A from
the start, so a core that the self-test has set out of service sets no SYS_DET.BUDGET (R246; log entry 62). -/
def State.stepSix (s : State) : State :=
  if s.phase = .selfTest ∧ s.selfTesting = false ∧ s.age.measuring = false ∧ s.age.settling = false then
    let t : State := { s with phase := .waitStrobe, budget := s.aBudget }
    (t.setRf Reg.MCK_CTRL 0 0 1).mckStart
  else s

/-- The plan that waits for the calibration kernels is made. -/
def State.planDue (s : State) : State := if s.age.awaits then (s.setAge { s.age with awaits := false }).plan else s

/-- The self-test kernels end: the calibration kernels run on the cores in service, and the planner acts where its readings
are in; step 6 follows when nothing of step 5 is left (R617, R644, R647). -/
def State.selfTestOver (s : State) (failed : BitVec 64) : State :=
  if s.selfTesting then (iter (State.selfTestEnd failed) 0 64 s).calibrateAll.planDue.stepSix else s

/-! ### Off and sleep -/

/-- The device runs on its supply: past the wake of step 1. -/
def State.powered (s : State) : Bool := decide (s.phase ≠ .off)

/-- PGOOD or VSENSE has fallen below what the device needs: OFF at once (R608). -/
def State.powerFails (s : State) : State := if s.powered then s.powerLost else s

/-- The commit before OFF has ended: PSU_EN goes low and the device is OFF (R615). Fuse programming, which only a sag finds
running, is cut short (R585). -/
def State.offNow (s : State) : State :=
  if s.phase = .commit ∧ s.nvm.op.isNone then s.fuseLost.powerDown else s

/-- Some Stage Engine waits with a wake cause it enables pending (R614). -/
def State.wakeCause (s : State) : Bool :=
  (List.range 2).any fun e => decide ((s.stg e).st = .wait) && s.stgWakeDue e

/-- A wake cause of a Stage Engine ends SLEEP (R614). -/
def State.sleepWake (s : State) : State := if s.wakeCause then s.sleepEnd else s

/-! ### The commands -/

/-- SAG_LEVEL_RISE (R618, R621, R623). -/
def execSagLevelRise (l : Fin 5) (s : State) : Host.Outcome State Fault Refusal := done s (s.sagRise l.val)

/-- SAG_LEVEL_FALL (R621). -/
def execSagLevelFall (l : Fin 5) (s : State) : Host.Outcome State Fault Refusal := done s (s.sagFall l.val)

/-- POWER_STATE_ENTRY (R612). -/
def execPowerStateEntry (s : State) : Host.Outcome State Fault Refusal := done s s.pwrEntry

/-- SLEEP_EXIT (R614). -/
def execSleepExit (s : State) : Host.Outcome State Fault Refusal := done s s.sleepWake

/-- OFF_ENTRY (R615). -/
def execOffEntry (s : State) : Host.Outcome State Fault Refusal := done s s.offNow

/-- POWER_ON (R616). -/
def execPowerOn (s : State) : Host.Outcome State Fault Refusal := done s (s.leaveOff 1)

/-- WAKE_N_ASSERT (R614, R616). -/
def execWakeNAssert (s : State) : Host.Outcome State Fault Refusal := done s s.wakeN

/-- POWER_FAIL (R608). -/
def execPowerFail (s : State) : Host.Outcome State Fault Refusal := done s s.powerFails

/-- PGOOD_HIGH (R617). -/
def execPgoodHigh (s : State) : Host.Outcome State Fault Refusal := done s s.pgoodRise

/-- PGOOD_TIMEOUT (R617). -/
def execPgoodTimeout (s : State) : Host.Outcome State Fault Refusal := done s s.pgoodLate

/-- CRYSTAL_STABLE (R593, R617). -/
def execCrystalStable (s : State) : Host.Outcome State Fault Refusal := done s s.crystalUp

/-- RECORDS_READ (R617, R642). -/
def execRecordsRead (s : State) : Host.Outcome State Fault Refusal := done s s.recordsIn

/-- SEC_RELEASE (R593, R617). -/
def execSecRelease (s : State) : Host.Outcome State Fault Refusal := done s s.secReleases

/-- SELF_TEST_DONE (R617). -/
def execSelfTestDone (failed : BitVec 64) (s : State) : Host.Outcome State Fault Refusal :=
  done s (s.selfTestOver failed)

end Sys2Proof.Machine
end

