-- ==== Sys2Proof/Machine/SecureCmd.lean ====
section
/-! DEFINITION. What ends in the Wave Store, in security, in non-volatile memory and in the ageing planner. -/

namespace Sys2Proof.Machine

/-- The clear of R356 ends: every memory it covers reads zero. -/
def State.wakeClearEnd (s : State) : State :=
  if s.rb Reg.WS_STAT 16 then (s.clearBytes 0 0x05C00000).setRf Reg.WS_STAT 16 16 0 else s

/-- WS_DRAIN_DONE (R344). -/
def execWsDrainDone (b : Fin 16) (s : State) : Host.Outcome State Fault Refusal :=
  done s (s.wsDrainEnd b.val).resumeStalled

/-- BANK_CLEAR_DONE (R347, R357). -/
def execBankClearDone (b : Fin 16) (s : State) : Host.Outcome State Fault Refusal :=
  done s (s.wsClearEnd b.val).resumeStalled

/-- WAKE_CLEAR_DONE (R356). -/
def execWakeClearDone (s : State) : Host.Outcome State Fault Refusal := done s (s.wakeClearEnd).resumeStalled

/-- FUSE_PROGRAM_DONE (R585, R586). -/
def execFuseProgramDone (s : State) : Host.Outcome State Fault Refusal := done s s.fuseDone

/-- SEAL_DELIVERY_DONE (R597, R598). -/
def execSealDeliveryDone (s : State) : Host.Outcome State Fault Refusal := done s s.sealDone.resumeStalled

/-- QUOTE_DONE (R599, R600). -/
def execQuoteDone (s : State) : Host.Outcome State Fault Refusal := done s s.quoteDone

/-- UNLOCK_DONE (R602, R603). -/
def execUnlockDone (i : Fin 4) (s : State) : Host.Outcome State Fault Refusal := done s (s.unlockEnd i.val)

/-- ENTROPY_FAIL (R588). -/
def execEntropyFail (s : State) : Host.Outcome State Fault Refusal := done s s.entropyFail

/-- NVM_OP_DONE (R631, R634). -/
def execNvmOpDone (s : State) : Host.Outcome State Fault Refusal := done s s.nvmEnd

/-- AGE_PERIODIC_MEASURE (R645): every 10 minutes of RUN, and in no other state. -/
def execAgePeriodicMeasure (s : State) : Host.Outcome State Fault Refusal :=
  done s (if s.phase = .run then s.ageStart else s)

/-- AGE_MEASURE_DONE (R646, R647): at start-up it may be what ends step 5 (R617). -/
def execAgeMeasureDone (s : State) : Host.Outcome State Fault Refusal := done s s.ageDone.stepSix

/-- VSET_SETTLE_EXPIRY (R647). -/
def execVsetSettleExpiry (s : State) : Host.Outcome State Fault Refusal := done s s.vsetSettled

/-- AGEH_APPEND (R649): every 10 hours of RUN and SLEEP, and at an event of R648, also one of step 5. -/
def execAgehAppend (s : State) : Host.Outcome State Fault Refusal := done s (s.whenAwake s.agehAppend)

end Sys2Proof.Machine
end

