-- ==== Sys2Proof/Machine/SerialCmd.lean ====
section
/-! DEFINITION. What happens on the serial ports and the REF timers (R541 to R564, R568, R570). An event that its unit does not await changes nothing. -/

namespace Sys2Proof.Machine

/-- TIMER_EXPIRY (R568, R570): the count of a REF timer reaches zero. -/
def execTimerExpiry (t : Fin 16) (s : State) : Host.Outcome State Fault Refusal :=
  done s (s.whenAwake (s.tmrRefEnd t.val))

/-- UART_RX_CHARACTER (R543 to R546). -/
def execUartRxCharacter (u : Fin 4) (ch : RxChar) (s : State) : Host.Outcome State Fault Refusal :=
  done s (s.whenAwake (s.uartReceive u.val ch))

/-- UART_TX_DONE (R551). -/
def execUartTxDone (u : Fin 4) (s : State) : Host.Outcome State Fault Refusal :=
  done s (s.whenAwake (s.uartTxEnd u.val))

/-- AUTOBAUD_MEASURE (R561, R563). -/
def execAutobaudMeasure (u : Fin 4) (m : SyncEdges) (s : State) : Host.Outcome State Fault Refusal :=
  done s (s.whenAwake (s.autobaud u.val m))

/-- LIN_HEADER_SENT (R555). -/
def execLinHeaderSent (u : Fin 4) (readBack : HeaderEcho) (s : State) : Host.Outcome State Fault Refusal :=
  done s (s.whenAwake (s.linHeaderSent u.val readBack))

/-- LIN_BREAK_DETECT (R558). -/
def execLinBreakDetect (u : Fin 4) (s : State) : Host.Outcome State Fault Refusal :=
  done s (s.whenAwake (s.linBreak u.val))

/-- LIN_SYNC_MEASURE (R561). -/
def execLinSyncMeasure (u : Fin 4) (m : SyncEdges) (s : State) : Host.Outcome State Fault Refusal :=
  done s (s.whenAwake (s.linSync u.val m))

/-- LIN_PID_RECEIVED (R555). -/
def execLinPidReceived (u : Fin 4) (ch : RxChar) (s : State) : Host.Outcome State Fault Refusal :=
  done s (s.whenAwake (s.linPid u.val ch))

/-- LIN_FRAME_END (R559). -/
def execLinFrameEnd (u : Fin 4) (s : State) : Host.Outcome State Fault Refusal :=
  done s (s.whenAwake (s.linFrameEnd u.val))

/-- LIN_RESPONSE_TIMEOUT (R557). -/
def execLinResponseTimeout (limit : LinLimit) (s : State) : Host.Outcome State Fault Refusal :=
  done s (s.whenAwake (s.linTimeout limit.u.val limit.start))

end Sys2Proof.Machine
end

