-- ==== Sys2Proof/Machine/Strobe.lean ====
section
/-! DEFINITION. The frame strobe: everything that the media clock's strobe brings about, in one order (R24, R27, R75, R93,
R112, R374, R424, R452, R569, R617, R624, R675). -/

namespace Sys2Proof.Machine

/-! ### Block boundaries (R27, R40, R330, R345, R676) -/

/-- Stages and ranks that close at this strobe; at a block boundary the P1 tasks of the block that enters its bus stage
are created before its ranks close (R301, R330, R374). -/
def State.stagesClose (s : State) (opens : Bool) : State :=
  let s := s.closeAllStages
  let s := if opens ∧ 16 ≤ s.frame then s.createBus (s.block - 1) else s
  s.closeEarly

/-- The block boundary that opens block k. -/
def State.blockBoundary (s : State) (k : Nat) : State :=
  let s := if 1 ≤ k then s.blockEnds (k - 1) else s
  let s := (s.cores.map (·.1)).foldl State.coreBoundary s
  let s := s.budgetBoundary.wsHandovers.taskBoundary.compaction
  let s := s.migrations k
  let s := (s.cores.map (·.1)).foldl State.ensureLoads s
  let s := (s.openBlock k).retireBlocks
  iter State.stgBlock 0 2 s

/-! ### Read-outs (R383, R424, R455) -/

/-- The read-outs of a strobe: collector, digital outputs and converters. -/
def State.strobeOut (s : State) : State :=
  let s := iter State.dacTake 0 s.dacChannels s
  s.readOut.dacReadOut

/-- The read-out at the strobe of a change of engine rate is itself marked invalid (R455 step 3). -/
def State.rateReadOut (s old : State) : State :=
  if s.rateMoved old && !s.col.readoutInvalid then
    let s : State := { s with col := { s.col with readoutInvalid := true } }
    let s := ((s.count (Reg.COL_CNT 3)).colFlag 3).count (Reg.MCK_CNT 2)
    (if s.rb Reg.DAC_CTRL 0 then s.count (Reg.DAC_CNT 0) else s) |> iter State.dacInvalid 0 s.dacChannels
  else s

/-- The transactions due at the strobe, and what a change of rate does to its read-out (R93, R455). -/
def State.strobeTxns (s : State) : State := ((s.rateDue.applyTxns s.frame).rateReadOut s).dacFilters

/-! ### Control ticks (R24, R675, R677) -/

/-- The frames at which the control ticks start that this strobe processes: those of the block it opens, if any (R24, R292). -/
def State.ticksAt (s : State) (f : Nat) : List Nat :=
  if s.ctick = 8 then [f, f + 8] else if f % s.ctick = 0 then [f] else []

/-- The events of the control tick at frame `f`: the allocator's own actions, then the released events (R41, R90, R105,
R106, R623, R675). -/
def State.tickEvents (s : State) (f : Nat) : State := State.releaseTick f (s.partActions f).sagCuts.budgetSteals

/-- The control ticks at the frames given: the events of each, then the fabric. Of two ticks the part nodes of the first see
no event of the second, and the voices are evaluated after both (R24, R283, R291). -/
def State.controlTicks (s : State) : List Nat → State
  | [] => s
  | [f] => (s.tickEvents f).fabricTick f
  | f :: g :: _ =>
    let t := s.tickEvents f
    let t := if t.rb Reg.MOD_CTRL 0 then t.evalParts else t
    State.fabricTwo t f (t.tickEvents g)

/-- Slice c begins its evaluation of the ticks of block k, or finishes an earlier one first; without a control tick its time is
0 (R293, R677). -/
def State.noteSlice (k ticks c : Nat) (s : State) : State :=
  if ticks = 0 then s.setRf (Reg.MOD_TEVAL c) 15 0 0
  else
    let m : SliceEval := { slice := c, blk := k, opened := s.refTotal, voices := true, ticks := ticks }
    { s with evals := s.evals ++ [{ m with voices := s.evalGoesOn m }] }

/-- The control ticks that a block-opening strobe processes, then the tasks of the block; `before` is the state that the strobe
met. A block that opens no control tick publishes nothing (R24, R292, R293, R301). -/
def State.blockWork (s before : State) (k : Nat) : State :=
  let ticks := s.ticksAt (16 * k)
  let s := if ticks ≠ [] ∧ s.rb Reg.MOD_CTRL 0 then s.tickOverruns before else s
  let s := s.controlTicks ticks
  let s := if s.rb Reg.MOD_CTRL 0 then (iter (State.noteSlice k ticks.length) 0 8 s).endEvals else s
  ((s.createTasks k).orderPubs k).createBackgrounds.stampAll

/-! ### The strobe -/

/-- Step 7 of R617, at the first strobe: the enables in the stated order, READY, and the Stage Engines that a boot load
has filled (R619). -/
def State.becomeReady (s : State) : State :=
  if s.phase = .waitStrobe then
    let old := s.dacSources
    let t : State := { s with phase := .run, age := { s.age with runFrom := s.refAll } }
    let t := (((t.setRf Reg.MOD_CTRL 0 0 1).setRf Reg.PUP_CTRL 0 0 1).setRf Reg.VAL_CTRL 0 0 1).setRf Reg.EVT_CTRL 0 0 1
    let t := (t.setRf Reg.DAC_CTRL 0 0 1).dacSourceChanged old
    iter State.stgBootStart 0 2 t
  else s

/-- The strobe of RUN: stages close, the read-out is made, timers count, transactions and the sag level's actions apply;
then, at a block boundary, the new block opens and its control ticks are processed (R93, R346, R376, R537, R624). `first`
is the first strobe after the media clock's start. -/
def State.strobeRun (s : State) (first : Bool) : State :=
  let before := s
  let s := s.muteStep.drainIntake
  let opens := decide (s.frame % 16 = 0)
  let s := (s.stagesClose opens).strobeOut.tmrAround State.strobeTxns
  let s := (s.muteBegin s.sagLevel).sagAct
  let s := if opens then ((s.blockBoundary s.block).sagForce).blockWork before s.block else s
  s.ptmStrobe.mckUpdate first

/-- The strobe of SLEEP: engine time, FRAME timers, PTM, bank handovers, transactions, the level and the media clock's own
update go on; the engine is gated (R613, R626). -/
def State.strobeSleep (s : State) (first : Bool) : State :=
  let opens := decide (s.frame % 16 = 0)
  let s := (s.tmrAround fun t => t.rateDue.applyTxns t.frame).sagAct
  let s := if opens then iter State.stgBlock 0 2 s.wsHandovers else s
  s.ptmStrobe.mckUpdate first

/-- A frame strobe (R451): none is made while the media clock is OFF. -/
def State.strobe (s : State) : State :=
  if s.clocked then
    let first := s.now.isNone
    let s := s.clockAdvance.becomeReady
    if s.phase = .sleep then s.strobeSleep first else s.strobeRun first
  else s

/-- FRAME_STROBE (R451). -/
def execFrameStrobe (s : State) : Host.Outcome State Fault Refusal := done s s.strobe

end Sys2Proof.Machine
end

