-- ==== Sys2Proof/Machine/TxnCmd.lean ====
section
/-! DEFINITION. The end of the checks of a transaction (R531, R532). -/

namespace Sys2Proof.Machine

/-- The command of a ring that awaits a transaction's check completes: OK, or TXNFAIL with code and index (R519, R521). -/
def State.txnChecked (s : State) (i : Nat) : State :=
  let x := s.txn i
  if x.st ≠ .checking then s
  else
    let t := s.txnCheckEnd i
    match x.ring with
    | none => t
    | some r =>
      match (t.ring i r).busy with
      | none => t
      | some (slot, d) =>
        let u := t.setRing i r { t.ring i r with busy := none }
        if x.found.1 = 0 then u.complete i r d slot 0 0 3 else u.complete i r d slot 4 x.found.1 x.found.2

/-- TXN_CHECK_DONE (R531, R532, R521). -/
def execTxnCheckDone (i : Fin 4) (s : State) : Host.Outcome State Fault Refusal := done s (s.txnChecked i.val)

end Sys2Proof.Machine
end

