-- ==== Sys2Proof/Machine/Dispatch.lean ====
section
/-! DEFINITION. The one match of the machine: each command of `Instr` and its meaning. -/

namespace Sys2Proof.Machine

/-- The effect of a command on everything but the queue. -/
def exec (i : Instr) (s : State) : Host.Outcome State Fault Refusal :=
  match i with
  | .frameStrobe => Sys2Proof.Machine.execFrameStrobe s
  | .deferredRelease => Sys2Proof.Machine.execDeferredRelease s
  | .framePublish v => Sys2Proof.Machine.execFramePublish v s
  | .deferredPublish v => Sys2Proof.Machine.execDeferredPublish v s
  | .spdifCsBlock => Sys2Proof.Machine.execSpdifCsBlock s
  | .tdmPortFrame n f => Sys2Proof.Machine.execTdmPortFrame n f s
  | .spdifRxFrame f => Sys2Proof.Machine.execSpdifRxFrame f s
  | .timerExpiry t => Sys2Proof.Machine.execTimerExpiry t s
  | .candidateQualify r cycle part => Sys2Proof.Machine.execCandidateQualify r cycle part s
  | .migrationCopy v => Sys2Proof.Machine.execMigrationCopy v s
  | .migrationCopyDone v => Sys2Proof.Machine.execMigrationCopyDone v s
  | .strainExpiry n => Sys2Proof.Machine.execStrainExpiry n s
  | .taskReady n tag => Sys2Proof.Machine.execTaskReady n tag s
  | .dispatch n => Sys2Proof.Machine.execDispatch n s
  | .preempt n => Sys2Proof.Machine.execPreempt n s
  | .residencyLoadDone n g => Sys2Proof.Machine.execResidencyLoadDone n g s
  | .ptmDialogueStart p => Sys2Proof.Machine.execPtmDialogueStart p s
  | .ptmPair p h e validContext => Sys2Proof.Machine.execPtmPair p h e validContext s
  | .ptmTimeout p => Sys2Proof.Machine.execPtmTimeout p s
  | .sagLevelRise l => Sys2Proof.Machine.execSagLevelRise l s
  | .sagLevelFall l => Sys2Proof.Machine.execSagLevelFall l s
  | .muteRampEnd => Sys2Proof.Machine.execMuteRampEnd s
  | .bundleIssue c => Sys2Proof.Machine.execBundleIssue c s
  | .waveFetchArrival c k => Sys2Proof.Machine.execWaveFetchArrival c k s
  | .windowOverflowTrap c => Sys2Proof.Machine.execWindowOverflowTrap c s
  | .windowUnderflowTrap c => Sys2Proof.Machine.execWindowUnderflowTrap c s
  | .trapEntry c => Sys2Proof.Machine.execTrapEntry c s
  | .faultWithoutHandler c => Sys2Proof.Machine.execFaultWithoutHandler c s
  | .recoveryKernelDone c pass => Sys2Proof.Machine.execRecoveryKernelDone c pass s
  | .veResume q n v => Sys2Proof.Machine.execVeResume q n v s
  | .taskCompletion n => Sys2Proof.Machine.execTaskCompletion n s
  | .contributionAccept n => Sys2Proof.Machine.execContributionAccept n s
  | .bar0Request p m => Sys2Proof.Machine.execBar0Request p m s
  | .bar2Request p m => Sys2Proof.Machine.execBar2Request p m s
  | .registerWrite slot => Sys2Proof.Machine.execRegisterWrite slot s
  | .latchedRead q addr size => Sys2Proof.Machine.execLatchedRead q addr size s
  | .clearOnRead q addr size => Sys2Proof.Machine.execClearOnRead q addr size s
  | .nodeTableWrite q addr size v => Sys2Proof.Machine.execNodeTableWrite q addr size v s
  | .ringDoorbell p r v => Sys2Proof.Machine.execRingDoorbell p r v s
  | .descriptorFetch p r res => Sys2Proof.Machine.execDescriptorFetch p r res s
  | .completionWrite p r => Sys2Proof.Machine.execCompletionWrite p r s
  | .completionHeadWrite p r v => Sys2Proof.Machine.execCompletionHeadWrite p r v s
  | .ringEnable p r depth => Sys2Proof.Machine.execRingEnable p r depth s
  | .ringDisable p r depth => Sys2Proof.Machine.execRingDisable p r depth s
  | .irqEnableWrite p v => Sys2Proof.Machine.execIrqEnableWrite p v s
  | .seDoorbell e p => Sys2Proof.Machine.execSeDoorbell e p s
  | .stgDoorbell q e v => Sys2Proof.Machine.execStgDoorbell q e v s
  | .linkUp p width speed => Sys2Proof.Machine.execLinkUp p width speed s
  | .portFlr p => Sys2Proof.Machine.execPortFlr p s
  | .portHotReset p => Sys2Proof.Machine.execPortHotReset p s
  | .portLinkDown p => Sys2Proof.Machine.execPortLinkDown p s
  | .portPerst p => Sys2Proof.Machine.execPortPerst p s
  | .d3hotEntry p => Sys2Proof.Machine.execD3hotEntry p s
  | .d0Return p => Sys2Proof.Machine.execD0Return p s
  | .l1Entry p sub => Sys2Proof.Machine.execL1Entry p sub s
  | .l1Exit p => Sys2Proof.Machine.execL1Exit p s
  | .commandNop p r => Sys2Proof.Machine.execCommandNop p r s
  | .events p r => Sys2Proof.Machine.execEvents p r s
  | .umps p r => Sys2Proof.Machine.execUmps p r s
  | .write32 p r => Sys2Proof.Machine.execWrite32 p r s
  | .txnStage p r => Sys2Proof.Machine.execTxnStage p r s
  | .txnCommit p r => Sys2Proof.Machine.execTxnCommit p r s
  | .txnAbort p r => Sys2Proof.Machine.execTxnAbort p r s
  | .progLoad p r => Sys2Proof.Machine.execProgLoad p r s
  | .progRemove p r => Sys2Proof.Machine.execProgRemove p r s
  | .txnCtrlOpen q j => Sys2Proof.Machine.execTxnCtrlOpen q j s
  | .txnCtrlCommit q j => Sys2Proof.Machine.execTxnCtrlCommit q j s
  | .txnCtrlAbort q j => Sys2Proof.Machine.execTxnCtrlAbort q j s
  | .txnSaddrWrite q j addr => Sys2Proof.Machine.execTxnSaddrWrite q j addr s
  | .txnSdataStage q j v => Sys2Proof.Machine.execTxnSdataStage q j v s
  | .txnCheckDone j => Sys2Proof.Machine.execTxnCheckDone j s
  | .semTry q n => Sys2Proof.Machine.execSemTry q n s
  | .semRel q n => Sys2Proof.Machine.execSemRel q n s
  | .evtTakeUartEntry u => Sys2Proof.Machine.execEvtTakeUartEntry u s
  | .hmapLoad q p v => Sys2Proof.Machine.execHmapLoad q p v s
  | .hmapModeChange q p v => Sys2Proof.Machine.execHmapModeChange q p v s
  | .stgSendgo q e kind => Sys2Proof.Machine.execStgSendgo q e kind s
  | .stgSvcPop q e => Sys2Proof.Machine.execStgSvcPop q e s
  | .stgLoad q e v => Sys2Proof.Machine.execStgLoad q e v s
  | .stgLoadDone e => Sys2Proof.Machine.execStgLoadDone e s
  | .stgStart q e v => Sys2Proof.Machine.execStgStart q e v s
  | .stgStop q e v => Sys2Proof.Machine.execStgStop q e v s
  | .stgLock q e v => Sys2Proof.Machine.execStgLock q e v s
  | .stgResume q e v => Sys2Proof.Machine.execStgResume q e v s
  | .stgAutoRestart e => Sys2Proof.Machine.execStgAutoRestart e s
  | .stgWakeResume e => Sys2Proof.Machine.execStgWakeResume e s
  | .seLoadArrival e => Sys2Proof.Machine.execSeLoadArrival e s
  | .wsOwnWrite q b v => Sys2Proof.Machine.execWsOwnWrite q b v s
  | .wsDrainDone b => Sys2Proof.Machine.execWsDrainDone b s
  | .bankClearDone b => Sys2Proof.Machine.execBankClearDone b s
  | .wakeClearDone => Sys2Proof.Machine.execWakeClearDone s
  | .taskEnable q t v => Sys2Proof.Machine.execTaskEnable q t v s
  | .taskDisable q t v => Sys2Proof.Machine.execTaskDisable q t v s
  | .taskRun q t v => Sys2Proof.Machine.execTaskRun q t v s
  | .dacStrobe q g1 g0 => Sys2Proof.Machine.execDacStrobe q g1 g0 s
  | .dacLoadEdge => Sys2Proof.Machine.execDacLoadEdge s
  | .dacClrChange level => Sys2Proof.Machine.execDacClrChange level s
  | .deglitchRelease c => Sys2Proof.Machine.execDeglitchRelease c s
  | .faultQualify c openLoad window => Sys2Proof.Machine.execFaultQualify c openLoad window s
  | .flatchClear q c => Sys2Proof.Machine.execFlatchClear q c s
  | .uartRxCharacter u ch => Sys2Proof.Machine.execUartRxCharacter u ch s
  | .uartRxdRead q u => Sys2Proof.Machine.execUartRxdRead q u s
  | .uartTxd q u v => Sys2Proof.Machine.execUartTxd q u v s
  | .uartTxDone u => Sys2Proof.Machine.execUartTxDone u s
  | .uartEnable q u v => Sys2Proof.Machine.execUartEnable q u v s
  | .uartDisable q u v => Sys2Proof.Machine.execUartDisable q u v s
  | .abarm q u => Sys2Proof.Machine.execAbarm q u s
  | .txflush q u => Sys2Proof.Machine.execTxflush q u s
  | .rxflush q u => Sys2Proof.Machine.execRxflush q u s
  | .autobaudMeasure u m => Sys2Proof.Machine.execAutobaudMeasure u m s
  | .fhdrGo q u id => Sys2Proof.Machine.execFhdrGo q u id s
  | .linHeaderSent u readBack => Sys2Proof.Machine.execLinHeaderSent u readBack s
  | .linBreakDetect u => Sys2Proof.Machine.execLinBreakDetect u s
  | .linSyncMeasure u m => Sys2Proof.Machine.execLinSyncMeasure u m s
  | .linPidReceived u ch => Sys2Proof.Machine.execLinPidReceived u ch s
  | .linFrameEnd u => Sys2Proof.Machine.execLinFrameEnd u s
  | .linResponseTimeout limit => Sys2Proof.Machine.execLinResponseTimeout limit s
  | .tmrCountWrite q t v => Sys2Proof.Machine.execTmrCountWrite q t v s
  | .tmrCfgWrite q t v => Sys2Proof.Machine.execTmrCfgWrite q t v s
  | .chkStart q k => Sys2Proof.Machine.execChkStart q k s
  | .chkArm q k => Sys2Proof.Machine.execChkArm q k s
  | .chkDinWrite q k n v => Sys2Proof.Machine.execChkDinWrite q k n v s
  | .chkAinWrite q k v => Sys2Proof.Machine.execChkAinWrite q k v s
  | .chkCfgWrite q k v => Sys2Proof.Machine.execChkCfgWrite q k v s
  | .progmkh q => Sys2Proof.Machine.execProgmkh q s
  | .svninc q => Sys2Proof.Machine.execSvninc q s
  | .dbgoff q => Sys2Proof.Machine.execDbgoff q s
  | .fuseProgramDone => Sys2Proof.Machine.execFuseProgramDone s
  | .sealRequest q b => Sys2Proof.Machine.execSealRequest q b s
  | .sealDeliveryDone => Sys2Proof.Machine.execSealDeliveryDone s
  | .attestGo q j => Sys2Proof.Machine.execAttestGo q j s
  | .quoteDone => Sys2Proof.Machine.execQuoteDone s
  | .chalgo q j => Sys2Proof.Machine.execChalgo q j s
  | .unlock q j => Sys2Proof.Machine.execUnlock q j s
  | .unlockDone j => Sys2Proof.Machine.execUnlockDone j s
  | .debugClose q j => Sys2Proof.Machine.execDebugClose q j s
  | .entropyFail => Sys2Proof.Machine.execEntropyFail s
  | .pwrReqset q v => Sys2Proof.Machine.execPwrReqset q v s
  | .pwrReqclr q v => Sys2Proof.Machine.execPwrReqclr q v s
  | .powerStateEntry => Sys2Proof.Machine.execPowerStateEntry s
  | .sleepExit => Sys2Proof.Machine.execSleepExit s
  | .offEntry => Sys2Proof.Machine.execOffEntry s
  | .powerOn => Sys2Proof.Machine.execPowerOn s
  | .wakeNAssert => Sys2Proof.Machine.execWakeNAssert s
  | .powerFail => Sys2Proof.Machine.execPowerFail s
  | .pgoodHigh => Sys2Proof.Machine.execPgoodHigh s
  | .pgoodTimeout => Sys2Proof.Machine.execPgoodTimeout s
  | .crystalStable => Sys2Proof.Machine.execCrystalStable s
  | .recordsRead => Sys2Proof.Machine.execRecordsRead s
  | .secRelease => Sys2Proof.Machine.execSecRelease s
  | .selfTestDone failed => Sys2Proof.Machine.execSelfTestDone failed s
  | .nvmWrite q rid => Sys2Proof.Machine.execNvmWrite q rid s
  | .nvmErase q rid => Sys2Proof.Machine.execNvmErase q rid s
  | .nvmCommit q => Sys2Proof.Machine.execNvmCommit q s
  | .nvmOpDone => Sys2Proof.Machine.execNvmOpDone s
  | .ageMeas q v => Sys2Proof.Machine.execAgeMeas q v s
  | .agePeriodicMeasure => Sys2Proof.Machine.execAgePeriodicMeasure s
  | .ageMeasureDone => Sys2Proof.Machine.execAgeMeasureDone s
  | .vsetSettleExpiry => Sys2Proof.Machine.execVsetSettleExpiry s
  | .agehAppend => Sys2Proof.Machine.execAgehAppend s
  | .configurationRequest p item write => Sys2Proof.Machine.execConfigurationRequest p item write s
  | .perstNRelease p => Sys2Proof.Machine.execPerstNRelease p s
  | .spdifLockChange lock rate cycle part => Sys2Proof.Machine.execSpdifLockChange lock rate cycle part s
  | .wclkInEdge cycle part => Sys2Proof.Machine.execWclkInEdge cycle part s

end Sys2Proof.Machine
end

