-- ==== Sys2Proof/Safety.lean ====
section
/-! DEFINITION. What a safe run is, and the conditions on the state that statements about commands name. -/

namespace Sys2Proof.Machine

/-- The next state of a step, if it goes on. -/
def nextOf (o : Host.Outcome State Fault Refusal) : Option State :=
  match o with
  | .next t => some t
  | .fault _ => none
  | .refused _ => none

/-- The block goes on from this state. -/
def State.goesOn (s : State) : Prop := (nextOf (step s)).isSome = true

/-- Every waiting command can be sent (WellFormed). -/
def State.queueOk (s : State) : Bool := s.pending.all Instr.wf

/-- An access of requester q at address `a` reaches the device at once and alone: the device answers accesses (R617 step 4),
no clear holds the address up (R356), a host's port is in D0 with its link up (R501) and holds no earlier write back (R482),
and no access of another requester stands at the arbiter (R505). -/
def State.arrives (s : State) (q : Req) (a : Nat) : Bool := s.reaches ⟨q, a, 4, none⟩ && s.posted.isEmpty

/-- A whole 32-bit write of `w` by requester q at address `a` reaches a register and is accepted: it arrives, the address
holds a register (R511), and none of the causes of R673 applies. -/
def State.takes (s : State) (q : Req) (a : Nat) (w : Word) : Bool :=
  s.arrives q a && isCsr a && decide (a % 4 = 0) &&
    (match findReg a with
     | some h => decide (s.directCause q h a w = 0)
     | none => false)

/-- The cause for which a whole 32-bit write of a register word is refused, 0 when it is accepted (R673). -/
def State.refusal (s : State) (q : Req) (a : Nat) (w : Word) : Nat :=
  match findReg a with
  | some h => s.directCause q h a w
  | none => 3

/-- The oldest fetched slot of ring r has been taken: it is fetched no more, HEAD has passed it (R486), and the expected
alive value is `alive` (R523). -/
def State.ringTaken (s : State) (p r slot : Nat) (rest : List (Nat × List Byte)) (alive : BitVec 16) : State :=
  let t := (s.setRing p r { s.ring p r with fetched := rest }).setReg (Reg.HPx_RING_HEAD p r)
    (BitVec.ofNat 32 ((slot + 1) % s.ringN p r))
  t.setRing p r { s.ring p r with fetched := rest, alive := alive }

/-- Ring r executes commands, its oldest fetched slot holds descriptor `d`, and its CRC is right (R523). -/
def State.ringHolds (s : State) (p r slot : Nat) (d : List Byte) (rest : List (Nat × List Byte)) : Bool :=
  decide ((s.ring p r).fetched = (slot, d) :: rest) && s.ringTakes p r &&
    decide (leField d 60 4 = (crc32c (d.take 60)).toNat)

/-- That descriptor also carries CODE `code` and the expected alive value, so it is executed (R523). -/
def State.ringRuns (s : State) (p r slot code : Nat) (d : List Byte) (rest : List (Nat × List Byte)) : Bool :=
  s.ringHolds p r slot d rest && decide (codeOf d = code) && decide (leField d 0 2 = (s.ring p r).alive.toNat)

/-- The message that the cause of vector v puts on the link of port p: one where its bit rises while it is enabled and messages
may be sent (R493 to R495). -/
def State.vectorOut (s : State) (p v : Nat) : List PortOut :=
  if !s.rb (Reg.HPx_IRQ_STAT p) v && s.rb (Reg.HPx_IRQ_EN p) v && s.msixReady p v then [.msix v] else []

/-- The bit that the cause of vector v sets in what port p holds pending: its own, where its bit rises while it is enabled and
messages may not be sent (R495). -/
def State.vectorHeld (s : State) (p v : Nat) : BitVec 32 :=
  if !s.rb (Reg.HPx_IRQ_STAT p) v && s.rb (Reg.HPx_IRQ_EN p) v && !s.msixReady p v then onebit v else 0

/-- How the converters that the variant has answer a change of source between two states (R1, R433 to R435): a channel whose
source stays is as it was; one that changes between live sources is held with its pins frozen; one that enters or leaves OFF, or goes to MUTE,
is switched directly. -/
def State.dacAnswers (s t : State) : Prop :=
  ∀ c, c < s.dacChannels →
    (t.dacSrc c = s.dacSrc c → t.dacCh c = s.dacCh c) ∧
    (t.dacSrc c ≠ s.dacSrc c → s.dacSrc c ≠ 0 → t.dacSrc c ≠ 0 → t.dacSrc c ≠ 6 →
      (t.dacCh c).hold = true ∧ (t.dacCh c).pin = s.dacPins c) ∧
    (t.dacSrc c ≠ s.dacSrc c → s.dacSrc c = 0 ∨ t.dacSrc c = 0 ∨ t.dacSrc c = 6 →
      (t.dacCh c).hold = false ∧ (t.dacCh c).settle = 0)

end Sys2Proof.Machine
end

