-- ==== Sys2Proof/Certificates/Slice0/Obligations.lean ====
section
/-! DEFINITION. The statements about the model: one `Prop` each, listed in OBLIGATIONS.json. `State.takes` is the
condition under which a register write is accepted (Safety.lean). -/

section Statements

open Sys2Proof Sys2Proof.Machine

/-! ### The queue of commands -/

/-- A step takes the command at the front of the queue and is `exec` of it on the state with the queue's rest. -/
def Obligations.StepRunsFrontCommand : Prop :=
  ∀ (c : Instr) (rest : List Instr) (s : State), s.pending = c :: rest →
    step s = exec c { s with pending := rest }

/-- On an empty queue the block idles (log entry 2, the model's choice): one reference cycle passes, in the interval that
runs and in the REF timers' time alike (R568), and nothing else changes. Before the first strobe the timers' time alone
counts it. While the media clock runs the count stops at the last cycle that ends before the strobe due; with the media clock
stopped no strobe is due. -/
def Obligations.EmptyQueueIdles : Prop :=
  ∀ s : State, s.pending = [] →
    (s.now = none → step s = .next { s with refAll := s.refAll + 1 }) ∧
    (s.now ≠ none → s.mck.st = .off → step s = .next { s with refCyc := s.refCyc + 1, refAll := s.refAll + 1 }) ∧
    (s.now ≠ none → s.mck.st ≠ .off →
      (s.refCyc + 1 < s.intervalRef / 2 ^ 32 → step s = .next { s with refCyc := s.refCyc + 1, refAll := s.refAll + 1 }) ∧
      (s.intervalRef / 2 ^ 32 ≤ s.refCyc + 1 → step s = .next s))

/-- After reset the device is OFF, nothing waits (so the invariant of the queue holds), every register word holds its
Power-on value (R20), memory reads zero, and no voice, tail, semaphore, transaction or link is in use. (The model's
choices in it: log entries 3, 5 and 6.) -/
def Obligations.ResetState : Prop :=
  State.reset.phase = .off ∧ State.reset.pending = [] ∧ State.reset.queueOk = true ∧ (∀ a, State.reset.reg a = powerOnWord State.reset.variant a) ∧
  (∀ a, State.reset.byte a = 0) ∧ Memory.wf State.reset.mem = true ∧
  (∀ v, (State.reset.slot v).state = .free) ∧ (∀ t, (State.reset.tail t).dying = false) ∧
  (∀ n, State.reset.holder n = none) ∧ (∀ i, (State.reset.txn i).st = .idle) ∧
  (∀ p, (State.reset.port p).link = .down) ∧ State.reset.heap = [] ∧ State.reset.now = none ∧
  State.reset.mck.st = .off

/-- Every command that can be sent runs, from every state, and leaves the queue as it finds it; one that cannot be
sent ends in the fault that says so. A step from a state whose waiting commands can all be sent therefore goes on, takes one
command off the queue, and leaves a state whose waiting commands can all be sent. (The model's choices in it: log entries 1
and 2.) -/
def Obligations.EveryCommandRuns : Prop :=
  (∀ (c : Instr) (s : State),
    (c.wf = true → ∃ t, exec c s = .next t ∧ t.pending = s.pending) ∧
    (c.wf = false → ∃ m, exec c s = .fault (.illFormed m))) ∧
  (∀ s : State, s.queueOk = true → ∃ t, step s = .next t ∧ t.pending = s.pending.drop 1 ∧ t.queueOk = true)

/-- Every step keeps device memory in its canonical form, from every state whose memory is in it, whatever command is at the
front of the queue; the reset state's memory is in it, and any run of steps keeps it. -/
def Obligations.StepsKeepMemoryCanonical : Prop :=
  Memory.wf State.reset.mem = true ∧
  (∀ s t : State, Memory.wf s.mem = true → step s = .next t → Memory.wf t.mem = true) ∧
  (∀ (k : Nat) (s t : State), Memory.wf s.mem = true → Host.Core.run Sys2Proof.core k s = .next t → Memory.wf t.mem = true)

/-- Any number of steps from a state whose waiting commands can all be sent ends in no fault and no refusal, and takes
that many commands off the queue. (The model's choices in it: log entries 1 and 2.) -/
def Obligations.RunsNeverStop : Prop :=
  ∀ (k : Nat) (s : State), s.queueOk = true →
    ∃ t, Host.Core.run Sys2Proof.core k s = .next t ∧ t.pending = s.pending.drop k ∧ t.queueOk = true

/-! ### Device memory -/

/-- Every operation that stores in device memory keeps its canonical form; a stored byte or word reads back, least
significant byte first (R11), and every other byte stays. -/
def Obligations.DeviceMemory : Prop :=
  (∀ s : State, Memory.wf s.mem = true →
    (∀ a b, Memory.wf (s.setByte a b).mem = true) ∧ (∀ a w, Memory.wf (s.setWord a w).mem = true) ∧
    (∀ a w, Memory.wf (s.setDword a w).mem = true) ∧ (∀ a l, Memory.wf (s.setBytes a l).mem = true) ∧
    (∀ a n, Memory.wf (s.clearBytes a n).mem = true) ∧
    (∀ a b n, Memory.wf (s.copyBytes a b n).mem = true) ∧ Memory.wf s.powerDown.mem = true) ∧
  (∀ (s : State) (a c : Nat) (b : Byte) (w : Word),
    (s.setByte a b).byte a = b ∧ (c ≠ a → (s.setByte a b).byte c = s.byte c) ∧
    (s.setWord a w).word a = w ∧ (∀ i, i < 4 → (s.setWord a w).byte (a + i) = w.extractLsb' (8 * i) 8) ∧
    (c < a ∨ a + 4 ≤ c → (s.setWord a w).byte c = s.byte c))

/-! ### Register words -/

/-- The stored word after an accepted write, bit by bit (R14): an rw bit takes what is written, a w1c bit written 1
clears, a w1s bit written 1 sets, and every other bit stays. -/
def Obligations.StoredWordFollowsAccessCodes : Prop :=
  ∀ (h : RegHit) (old w : Word) (i : Nat),
    (mergeWord h old w).getLsbD i =
      (if (h.bitsOf .w1s).getLsbD i && w.getLsbD i then true
       else if (h.bitsOf .w1c).getLsbD i && w.getLsbD i then false
       else if (h.bitsOf .rw).getLsbD i then w.getLsbD i else old.getLsbD i)

/-- One whole 32-bit register write (R505, R509, R511): accepted, it has the effect of its register and no
other; refused, it leaves everything but the record of the refusal (R497) and the answer. A host's write does not take
effect while an earlier write of its port waits, and then waits too (R482), nor in D3hot (R501). Accesses of several
requesters that are left at the arbiter stand there, in one slot, until another's access shares it. An access of less than 32
bits, or whose width does not divide its address, is refused with cause 2, or 3 where no register stands (R509, R673). An aligned
64-bit write of a wide register is refused as a whole or writes both words; of any other address it is two writes, the lower
first (R509, R510). Two writes that meet in one slot are made in the order that starts after the requester served first in
the latest such slot, and the second is judged in the state that the first leaves (R505, R506); where both take effect on one
word with different values, SYS_COLL names both, SYS_COLL_ADDR holds the word's address unless a flag stood already, and each
host concerned has the cause of vector 6 (R507). (The model's choices in it: log entries 14, 16, 17 and 19.) -/
def Obligations.RegisterWriteAlone : Prop :=
  (∀ (q : Req) (a : Nat) (w : Word) (s : State),
    (∀ h, s.takes q a w = true → findReg a = some h →
      exec (.registerWrite { accesses := [⟨q, a, 4, some (w.setWidth 64)⟩] }) s =
        .next { s.applyWord q h a w with resp := {}, pending := s.pending }) ∧
    (s.arrives q a = true → isCsr a = true → a % 4 = 0 → s.refusal q a w ≠ 0 →
      (∀ h, findReg a = some h → h.name ≠ .TXN_SDATA) →
      exec (.registerWrite { accesses := [⟨q, a, 4, some (w.setWidth 64)⟩] }) s =
        .next { s.refuse q true false a (s.refusal q a w) with
          resp := { cause := s.refusal q a w }, pending := s.pending })) ∧
  (∀ (p : Port) (a : Nat) (w : Word) (s : State), s.awake = true → isCsr a = true →
    (s.portTakes p = true → s.heldBack p = true →
      exec (.registerWrite { accesses := [⟨Port.req p, a, 4, some (w.setWidth 64)⟩] }) s =
        .next { s with stalled := s.stalled ++ [(p, false, ⟨true, a - 0x07000000,
          (List.range 4).map fun i => some (w.extractLsb' (8 * i) 8)⟩)] }) ∧
    ((s.port (Port.ix p)).d3hot = true →
      exec (.registerWrite { accesses := [⟨Port.req p, a, 4, some (w.setWidth 64)⟩] }) s = .next s)) ∧
  (∀ (l : List RegAccess) (s : State), l ≠ [] → slotOk l = true → (∀ w ∈ l, s.reaches w = true) →
    exec (.registerWrite { accesses := l, meets := true }) s = .next { s with posted := s.posted ++ [l] }) ∧
  (∀ (q : Req) (a n : Nat) (v : Dword) (s : State), s.arrives q a = true → isCsr a = true →
    (n = 1 ∨ n = 2 ∨ (n = 4 ∨ n = 8) ∧ a % n ≠ 0) →
    let c := if (findReg (a / 4 * 4)).isSome then 2 else 3
    exec (.registerWrite { accesses := [⟨q, a, n, some v⟩] }) s = .next { s.refuse q true false a c with resp := { cause := c } }) ∧
  (∀ (q : Req) (a : Nat) (v : Dword) (s : State), s.arrives q a = true → isCsr a = true → a % 8 = 0 →
    let lo : Word := v.setWidth 32
    let hi : Word := (v >>> 32).setWidth 32
    (∀ h, findReg a = some h → wideAt a = true →
      let c := firstCause [s.directCause q h a lo, s.directCause q { h with upper := true } (a + 4) hi]
      (c = 0 → exec (.registerWrite { accesses := [⟨q, a, 8, some v⟩] }) s =
        .next { (s.applyWord q h a lo).applyWord q { h with upper := true } (a + 4) hi with resp := {}, pending := s.pending }) ∧
      (c ≠ 0 → h.name ≠ .TXN_SDATA → exec (.registerWrite { accesses := [⟨q, a, 8, some v⟩] }) s =
        .next { s.refuse q true false a c with resp := { cause := c } })) ∧
    (wideAt a = false →
      let x := s.regWriteWord q a lo
      let t := x.2.refuse q true false a x.1
      let y := t.regWriteWord q (a + 4) hi
      t.posted = [] → exec (.registerWrite { accesses := [⟨q, a, 8, some v⟩] }) s =
        .next { y.2.refuse q true false (a + 4) y.1 with
          resp := { cause := if x.1 = 0 then y.1 else x.1 }, pending := s.pending })) ∧
  (∀ (q₁ q₂ : Req) (a₁ a₂ : Nat) (w₁ w₂ : Word) (h₁ h₂ : RegHit) (l : List RegAccess) (s : State),
    s.arrives q₁ a₁ = true → s.arrives q₂ a₂ = true → isCsr a₁ = true → isCsr a₂ = true → a₁ % 4 = 0 → a₂ % 4 = 0 →
    findReg a₁ = some h₁ → findReg a₂ = some h₂ → h₁.bitsOf .w1c = 0 → h₂.bitsOf .w1c = 0 →
    arbRank s.arbLast q₁ < arbRank s.arbLast q₂ →
    (l = [⟨q₁, a₁, 4, some (w₁.setWidth 64)⟩, ⟨q₂, a₂, 4, some (w₂.setWidth 64)⟩] ∨
      l = [⟨q₂, a₂, 4, some (w₂.setWidth 64)⟩, ⟨q₁, a₁, 4, some (w₁.setWidth 64)⟩]) →
    let s' : State := { s with arbLast := some q₁ }
    let t := s'.applyWord q₁ h₁ a₁ w₁
    let u := t.applyWord q₂ h₂ a₂ w₂
    let both := decide (a₁ = a₂) && decide (w₁ ≠ w₂) && s'.takesEffect a₁ w₁ && t.takesEffect a₂ w₂
    s'.directCause q₁ h₁ a₁ w₁ = 0 → t.directCause q₂ h₂ a₂ w₂ = 0 →
    exec (.registerWrite { accesses := l }) s =
      .next { State.commitSnapshot s' (u.flagCollisions (if both then [(a₁, q₁), (a₂, q₂)] else [])) with
        slotResp := [{ req := q₁ }, { req := q₂ }], resp := {}, pending := s.pending }) ∧
  (∀ (q₁ q₂ : Req) (a : Nat) (s : State), q₁ ≠ q₂ → a < 2 ^ 32 →
    let t := s.flagCollisions [(a, q₁), (a, q₂)]
    t = { s with csr := t.csr, ports := t.ports } ∧ s.flagCollisions [] = s ∧
    t.reg Reg.SYS_COLL = s.reg Reg.SYS_COLL ||| onebit (Req.ix q₁) ||| onebit (Req.ix q₂) ∧
    (s.rf Reg.SYS_COLL 3 0 = 0 → (t.reg Reg.SYS_COLL_ADDR).toNat = a) ∧
    (s.rf Reg.SYS_COLL 3 0 ≠ 0 → t.reg Reg.SYS_COLL_ADDR = s.reg Reg.SYS_COLL_ADDR) ∧
    (∀ p : Port, q₁ = Port.req p ∨ q₂ = Port.req p → t.rb (Reg.HPx_IRQ_STAT (Port.ix p)) 6 = true))

/-- What the refusal of a host's access leaves (R497): a first fault fills HPx_AFLT and HPx_AFLT_ADDR and leaves OVF, a
further one sets OVF alone; each is counted and sets the cause of vector 5. Only register words and the ports change. A Stage
Engine's refusal records nothing. (The model's choices in it: log entry 18.) -/
def Obligations.RefusalIsRecorded : Prop :=
  ∀ (s : State) (q : Req) (write bar2 : Bool) (a cause : Nat), 0 < cause → cause < 16 → a < 2 ^ 32 →
    ((q = .se0 ∨ q = .se1) → s.refuse q write bar2 a cause = s) ∧
    (∀ p : Port, q = Port.req p →
      let n := Port.ix p
      let t := s.refuse q write bar2 a cause
      t = { s with csr := t.csr, ports := t.ports } ∧
      t.rb (Reg.HPx_IRQ_STAT n) 5 = true ∧
      (t.reg (Reg.HPx_CNT_AFLT n)).toNat = min ((s.reg (Reg.HPx_CNT_AFLT n)).toNat + 1) 0xFFFFFFFF ∧
      (s.rb (Reg.HPx_AFLT n) 31 = true →
        t.reg (Reg.HPx_AFLT n) = s.reg (Reg.HPx_AFLT n) ||| 0x40000000 ∧
        t.reg (Reg.HPx_AFLT_ADDR n) = s.reg (Reg.HPx_AFLT_ADDR n)) ∧
      (s.rb (Reg.HPx_AFLT n) 31 = false →
        t.rb (Reg.HPx_AFLT n) 31 = true ∧ t.rb (Reg.HPx_AFLT n) 30 = s.rb (Reg.HPx_AFLT n) 30 ∧
        t.rb (Reg.HPx_AFLT n) 29 = write ∧ t.rb (Reg.HPx_AFLT n) 28 = bar2 ∧
        t.rf (Reg.HPx_AFLT n) 27 24 = cause ∧ (t.reg (Reg.HPx_AFLT_ADDR n)).toNat = a))

/-- Reads that act. A read of the lower word of an rl register returns its lower half and latches its upper half for the
reader alone, no other requester's latch changing (R16); a read of the upper word returns what the reader has latched and
changes nothing (R14, R16, R17), but for debug data that the reader's closed lock hides (R248). A read of a register with rc
fields returns their value and then clears them, and changes nothing else. -/
def Obligations.ReadEffects : Prop :=
  ∀ (q : Req) (a : Nat) (h : RegHit) (s : State), s.arrives q a = true → isCsr a = true → a % 4 = 0 →
    findReg a = some h → h.name ≠ .SEM_TRY → h.name ≠ .UART_RXD → h.name ≠ .TMR_COUNT →
    readCause q h = 0 → s.readable h = true → hiddenFrom q h a = false →
    (h.latches = true → h.upper = false →
      let v := (s.wideNow q h).getD (s.reg64 a)
      ∃ t, exec (.latchedRead q a 4) s = .next t ∧
        t = { s with
          latch := tput 0 s.latch (latchKey q (a + 4)) ((v >>> 32).setWidth 32)
          resp := { value := (v.setWidth 32).setWidth 64 } } ∧
        tget 0 t.latch (latchKey q (a + 4)) = (v >>> 32).setWidth 32 ∧
        ∀ o b, o ≠ q → b < 2 ^ 32 → tget 0 t.latch (latchKey o b) = tget 0 s.latch (latchKey o b)) ∧
    (h.latches = true → h.upper = true →
      exec (.latchedRead q a 4) s =
        .next { s with resp := { value := (if s.veiled q h then 0 else tget 0 s.latch (latchKey q a)).setWidth 64 } }) ∧
    (h.bitsOf .rc ≠ 0 → h.wide = false →
      exec (.clearOnRead q a 4) s =
        .next { s.setReg a (s.reg a &&& ~~~ h.bitsOf .rc) with
          resp := { value := (s.wordNow q h a &&& ~~~ h.bitsOf .wo).setWidth 64 } })

/-! ### Semaphores -/

/-- A read of SEM_TRY[n] is a try-acquire with the four outcomes of R528. A write of 1 to SEM_REL[n] by the holder frees
the semaphore and touches no other; a write of any value by anyone else, reserved bits or not, is refused with cause 1, which
comes before cause 5 (R529, R673), and every semaphore stays. (The model's choice in it: log entry 16.) -/
def Obligations.Semaphores : Prop :=
  ∀ (q : Req) (n : Fin 64) (w : Word) (s : State), s.ready = true →
    (∀ o, s.arrives q (Reg.SEM_TRY n.val) = true → s.holder n.val = some o →
      exec (.semTry q n) s = .next { s with
        resp := { value := BitVec.ofNat 64 ((if o = q then 0x80000000 else 0x40000000) + (Req.ix o + 1)) } }) ∧
    (s.arrives q (Reg.SEM_TRY n.val) = true → s.holder n.val = none → (s.rb Reg.SEM_CTRL 0 && s.holdsAbove q n.val) = true →
      exec (.semTry q n) s = .next { s.count Reg.SEM_CNT_ORDER with
        resp := { value := 0x20000000 }, pending := s.pending }) ∧
    (s.arrives q (Reg.SEM_TRY n.val) = true → s.holder n.val = none → (s.rb Reg.SEM_CTRL 0 && s.holdsAbove q n.val) = false →
      exec (.semTry q n) s = .next { s.setHolder n.val (some q) with
        resp := { value := BitVec.ofNat 64 (0x80000000 + (Req.ix q + 1)) } }) ∧
    (s.arrives q (Reg.SEM_REL n.val) = true → s.inWriteSet none (Reg.SEM_REL n.val) = false →
      (s.holder n.val = some q → ∃ t, exec (.semRel q n) s = .next t ∧ t = { s.setHolder n.val none with resp := {} } ∧
        t.holder n.val = none ∧ ∀ m, m ≠ n.val → t.holder m = s.holder m) ∧
      (s.holder n.val ≠ some q → ∃ t, exec (.semRel q n) s = .next t ∧ t.resp.cause = 1 ∧
        t = { s with csr := t.csr, ports := t.ports, resp := t.resp }) ∧
      (s.holder n.val ≠ some q →
        ∃ t, exec (.registerWrite { accesses := [⟨q, Reg.SEM_REL n.val, 4, some (w.setWidth 64)⟩] }) s = .next t ∧
          t.resp.cause = 1 ∧ t = { s with csr := t.csr, ports := t.ports, resp := t.resp }))

/-! ### Timers and check units -/

/-- TMR_COUNT winds, rewinds or stops a timer (R569), after the expiry of a REF timer whose cycles have passed (R571);
TMR_CFG stores the word, and USER none also clears EXP, but a
write that RUN = 0 would accept is refused with cause 6 while RUN is 1 (R572); the count of a running REF timer falls by
one a reference cycle and reads so (R568); when it has reached zero, and not before (R569), the timer clears RUN, sets EXP
and, for a host USER, the cause of vector 18 (R570); one that does not run is left as it is. (The model's choices in it: log
entries 1, 2 and 8.) -/
def Obligations.TimerCommands : Prop :=
  ∀ (q : Req) (t : Fin 16) (v : Word) (s : State),
    let due := s.tmrRun t.val && s.tmrRef t.val && decide (tget 0 s.refEnd t.val ≤ s.refAll)
    (s.takes q (Reg.TMR_COUNT t.val) v = true → due = false →
      exec (.tmrCountWrite q t v) s = .next { (s.setReg (Reg.TMR_COUNT t.val) v).setRf (Reg.TMR_STAT t.val) 1 1
        (if v = 0 then 0 else 1) with refEnd := tput 0 s.refEnd t.val (s.refAll + v.toNat), resp := {} }) ∧
    (s.takes q (Reg.TMR_COUNT t.val) v = true → due = true →
      ∃ u, exec (.tmrCountWrite q t v) s = .next u ∧
        u = { s with csr := u.csr, ports := u.ports, refEnd := tput 0 s.refEnd t.val (s.refAll + v.toNat), resp := {} } ∧
        u.reg (Reg.TMR_COUNT t.val) = v ∧ u.tmrExp t.val = true ∧ u.tmrRun t.val = decide (v ≠ 0) ∧
        (s.rf (Reg.TMR_CFG t.val) 31 29 = 1 → u.rb (Reg.HPx_IRQ_STAT 0) 18 = true) ∧
        (s.rf (Reg.TMR_CFG t.val) 31 29 = 2 → u.rb (Reg.HPx_IRQ_STAT 1) 18 = true)) ∧
    (s.arrives q (Reg.TMR_COUNT t.val) = true → s.ready = true → s.tmrRef t.val = true → s.tmrRun t.val = true →
      exec (.latchedRead q (Reg.TMR_COUNT t.val) 4) s =
        .next { s with resp := { value := (BitVec.ofNat 32 (tget 0 s.refEnd t.val - s.refAll)).setWidth 64 } }) ∧
    (s.takes q (Reg.TMR_CFG t.val) v = true →
      exec (.tmrCfgWrite q t v) s = .next { (if fld v 31 29 = 0 then
          (s.setReg (Reg.TMR_CFG t.val) v).setRf (Reg.TMR_STAT t.val) 0 0 0 else s.setReg (Reg.TMR_CFG t.val) v) with
        resp := {}, pending := s.pending }) ∧
    (s.tmrRun t.val = true → (s.setRf (Reg.TMR_STAT t.val) 1 1 0).takes q (Reg.TMR_CFG t.val) v = true →
      exec (.tmrCfgWrite q t v) s = .next { s.refuse q true false (Reg.TMR_CFG t.val) 6 with
        resp := { cause := 6 }, pending := s.pending }) ∧
    (s.awake = true → due = true →
      ∃ u, exec (.timerExpiry t) s = .next u ∧ u = { s with csr := u.csr, ports := u.ports } ∧
        u.reg (Reg.TMR_COUNT t.val) = 0 ∧ u.tmrExp t.val = true ∧ u.tmrRun t.val = false ∧
        (s.rf (Reg.TMR_CFG t.val) 31 29 = 1 → u.rb (Reg.HPx_IRQ_STAT 0) 18 = true) ∧
        (s.rf (Reg.TMR_CFG t.val) 31 29 = 2 → u.rb (Reg.HPx_IRQ_STAT 1) 18 = true)) ∧
    ((s.awake && due) = false → exec (.timerExpiry t) s = .next s)

/-- A check unit. START takes the unit's parameters and sets r to INIT (R575, R576); a write to CHK_DINn feeds the n least
significant bytes, the lowest first (R577); before any START the result is a free value. A message word of the alive check
(R579): with EN = 0 nothing; unsynchronised, EXPECT and SYNC are set and LAST is 0; otherwise c is the expected value, the one
before it, or a skip. ARM clears SYNC alone, and so does a write of CHK_ACFG that sets EN from 0 to 1, beside storing the word
(R580). A write of CHK_CFG stores the word, and USER none clears r and SYNC (R567). Nothing else changes. (The model's choices
in it: log entry 4.) -/
def Obligations.CheckUnits : Prop :=
  ∀ (q : Req) (k n : Fin 4) (v x : Word) (s : State),
    let a := s.reg (Reg.CHK_ACFG k.val)
    let st := Reg.CHK_ASTAT k.val
    let m := 2 ^ fld a 20 16
    let c := x.toNat / 2 ^ fld a 4 0 % m
    let e := s.rf st 15 0
    (s.takes q (Reg.CHK_CTRL k.val) 1 = true →
      exec (.chkStart q k) s = .next { s.setChk k.val {
          r := BitVec.ofNat 32 ((s.reg (Reg.CHK_INIT k.val)).toNat % 2 ^ s.rf (Reg.CHK_CFG k.val) 21 16)
          width := s.rf (Reg.CHK_CFG k.val) 21 16, poly := s.reg (Reg.CHK_POLY k.val), init := s.reg (Reg.CHK_INIT k.val)
          xorout := s.reg (Reg.CHK_XOROUT k.val), refin := s.rb (Reg.CHK_CFG k.val) 0
          refout := s.rb (Reg.CHK_CFG k.val) 1 } with resp := {} }) ∧
    (s.takes q (Reg.CHK_DIN k.val n.val) v = true → (s.chk k.val).width ≠ 0 →
      exec (.chkDinWrite q k n v) s = .next { s.setChk k.val { s.chk k.val with
          r := BitVec.ofNat 32 ((toLE v.toNat (n.val + 1)).foldl
            (crcByte (s.chk k.val).width (s.chk k.val).poly.toNat (s.chk k.val).refin) (s.chk k.val).r.toNat) } with
        resp := {} }) ∧
    (s.takes q (Reg.CHK_DIN k.val n.val) v = true → (s.chk k.val).width = 0 →
      exec (.chkDinWrite q k n v) s = .next { s.setChk k.val { s.chk k.val with r := Config.freeValue 32 s.draw } with
        draw := s.draw + 1, resp := {} }) ∧
    (s.takes q (Reg.CHK_CTRL k.val) 2 = true →
      exec (.chkArm q k) s = .next { s.setRf st 29 29 0 with resp := {} }) ∧
    (s.takes q (Reg.CHK_AIN k.val) x = true →
      (bit a 31 = false → exec (.chkAinWrite q k x) s = .next { s with resp := {} }) ∧
      (bit a 31 = true → s.rb st 29 = false →
        exec (.chkAinWrite q k x) s = .next { ((s.setRf st 15 0 ((c + 1) % m)).setRf st 29 29 1).setRf st 31 30 0 with
          resp := {} }) ∧
      (bit a 31 = true → s.rb st 29 = true → c = e →
        exec (.chkAinWrite q k x) s = .next { (s.setRf st 15 0 ((c + 1) % m)).setRf st 31 30 1 with resp := {} }) ∧
      (bit a 31 = true → s.rb st 29 = true → c ≠ e → c = (e + m - 1) % m →
        exec (.chkAinWrite q k x) s = .next { ((s.setRf st 31 30 2).setRf st 16 16 1).count (Reg.CHK_CNT k.val 0) with
          resp := {} }) ∧
      (bit a 31 = true → s.rb st 29 = true → c ≠ e → c ≠ (e + m - 1) % m →
        exec (.chkAinWrite q k x) s = .next { (((s.setRf st 31 30 3).setRf st 17 17 1).count (Reg.CHK_CNT k.val 1)).setRf
          st 15 0 ((c + 1) % m) with resp := {} })) ∧
    (s.takes q (Reg.CHK_CFG k.val) x = true →
      (fld x 31 29 ≠ 0 → exec (.chkCfgWrite q k x) s = .next { s.setReg (Reg.CHK_CFG k.val) x with resp := {} }) ∧
      (fld x 31 29 = 0 → exec (.chkCfgWrite q k x) s = .next { ((s.setReg (Reg.CHK_CFG k.val) x).setChk k.val
        { s.chk k.val with r := 0 }).setRf st 29 29 0 with resp := {} })) ∧
    (s.takes q (Reg.CHK_ACFG k.val) x = true →
      (bit a 31 = false → bit x 31 = true →
        exec (.registerWrite { accesses := [⟨q, Reg.CHK_ACFG k.val, 4, some (x.setWidth 64)⟩] }) s =
          .next { (s.setReg (Reg.CHK_ACFG k.val) x).setRf st 29 29 0 with resp := {} }) ∧
      (bit a 31 = true ∨ bit x 31 = false →
        exec (.registerWrite { accesses := [⟨q, Reg.CHK_ACFG k.val, 4, some (x.setWidth 64)⟩] }) s =
          .next { s.setReg (Reg.CHK_ACFG k.val) x with resp := {} }))


/-! ### Serial ports -/

/-- A character written to UART_TXD joins the transmit queue behind those waiting, and an enabled transmitter that sends
nothing takes the oldest and puts it on the line (R541, R551); when the last stop bit of a character ends the next one
starts, and with none left the transmitter is idle, which is cause TXE (R564). The byte of a frame that was given up ends
the frame (R552), and a frame that waited for a character goes on the line behind it. TXFLUSH empties the queue and leaves the
character in progress; on a transmitter that sends nothing that is cause TXE too (R564). (The model's choices in it: log
entries 1 and 47.) -/
def Obligations.UartTransmit : Prop :=
  ∀ (q : Req) (u : Fin 4) (v : Word) (s : State),
    let x := s.uart u.val
    let c : BitVec 9 := BitVec.ofNat 9 (v.toNat % 2 ^ s.rf (Reg.UART_CFG u.val) 23 20)
    let sending := (x.frame.map LinFrame.onLine).getD false
    let dropped := (x.frame.map fun f => decide (f.stage = .dropped)).getD false
    (s.takes q (Reg.UART_TXD u.val) v = true →
      ∃ t, exec (.uartTxd q u v) s = .next t ∧ t = { s with uarts := t.uarts, resp := {} } ∧
        (∀ n, n ≠ u.val → t.uart n = s.uart n) ∧
        ((s.uartOn u.val && !x.sends) = false → t.uart u.val = { x with txq := x.txq ++ [c] }) ∧
        (∀ b l, s.uartOn u.val = true → x.sends = false → x.txq ++ [c] = b :: l →
          t.uart u.val = { x with cur := some b, txq := l, txd := s.uartLine u.val b.toNat })) ∧
    (s.takes q (Reg.UART_CTRL u.val) 2 = true →
      ∃ t, exec (.txflush q u) s = .next t ∧ t = { s with uarts := t.uarts, csr := t.csr, ports := t.ports, resp := {} } ∧
        (∀ n, n ≠ u.val → t.uart n = s.uart n) ∧ t.uart u.val = { x with txq := [] } ∧
        (x.sends = true ∨ x.txq = [] → t.csr = s.csr ∧ t.ports = s.ports) ∧
        (x.sends = false → x.txq ≠ [] → s.rb (Reg.UART_IEN u.val) 3 = true →
          (s.uartDest u.val = 3 → t.rb (Reg.HPx_IRQ_STAT 0) 19 = true) ∧
          (s.uartDest u.val = 4 → t.rb (Reg.HPx_IRQ_STAT 1) 19 = true))) ∧
    (s.awake = true → x.cur.isSome = true →
      ∃ t, exec (.uartTxDone u) s = .next t ∧ t = { s with uarts := t.uarts, csr := t.csr, ports := t.ports } ∧
        (∀ n, n ≠ u.val → t.uart n = s.uart n) ∧
        (∀ b l, s.uartOn u.val = true → sending = false → x.txq = b :: l →
          t.uart u.val = { x with cur := some b, txq := l, txd := s.uartLine u.val b.toNat } ∧
          t.csr = s.csr ∧ t.ports = s.ports) ∧
        (sending = true → t.uart u.val = { x with cur := none, txd := (x.frame.map (s.frameLine u.val)).getD [] } ∧
          t.csr = s.csr ∧ t.ports = s.ports) ∧
        (∀ f, x.frame = some f → f.stage = .header → f.spent = false →
          (t.uart u.val).txd = [(false, 16 * (13 + s.rf (Reg.UART_CFG u.val) 13 11)),
            (true, 16 * (1 + s.rf (Reg.UART_CFG u.val) 10 10))] ++ byteLine 0x55 ++ byteLine f.pid) ∧
        (x.txq = [] → sending = false → t.uart u.val = { x with cur := none, txd := [] } ∧
          (s.rb (Reg.UART_IEN u.val) 3 = true →
            (s.uartDest u.val = 3 → t.rb (Reg.HPx_IRQ_STAT 0) 19 = true) ∧
            (s.uartDest u.val = 4 → t.rb (Reg.HPx_IRQ_STAT 1) 19 = true)))) ∧
    (s.awake = true → x.cur = none → dropped = true →
      ∃ t, exec (.uartTxDone u) s = .next t ∧ t = { s with uarts := t.uarts, csr := t.csr, ports := t.ports } ∧
        (∀ n, n ≠ u.val → t.uart n = s.uart n) ∧ (t.uart u.val).frame = none ∧
        (x.txq = [] → t.uart u.val = { x with frame := none, txd := [] })) ∧
    ((s.awake && (x.cur.isSome || dropped)) = false → exec (.uartTxDone u) s = .next s)

/-- A character received in mode 0 outside autobaud: the value of each of its bits is the majority of three centre samples
(R544), a start bit of value low is accepted and stores the character's entry at the end of the receive queue (R543, R547),
any other counts a glitch and sets its flag; in a full queue the newest entry gives way and its place is marked OVR (R549).
With EN = 0, or while autobaud awaits its character, nothing happens (R552, R563). Without parity, an entry holds the enabled
data bits, NOISE where the samples of a bit disagree, and bit 31 (R545, R547); a low stop bit flags FRM, or BRK alone where
all data bits are zero (R545). With even or odd parity the parity bit follows the data bits: BRK also needs it zero, and PAR
marks ones of the wrong number among data and parity bits, but not in a break (R541, R545). (The model's choice in it: log
entry 1.) -/
def Obligations.UartReceive : Prop :=
  ∀ (u : Fin 4) (ch : RxChar) (s : State), s.awake = true →
    let x := s.uart u.val
    let e := s.charEntry u.val ch
    (s.uartOn u.val = false ∨ x.abWait = true → exec (.uartRxCharacter u ch) s = .next s) ∧
    (s.uartOn u.val = true → x.abWait = false → s.uartMode u.val = 0 →
      (ch.startLow = false → exec (.uartRxCharacter u ch) s =
        .next ((s.count (Reg.UART_CNT u.val 0)).orReg (Reg.UART_STAT u.val) 4)) ∧
      (ch.startLow = true →
        ∃ t, exec (.uartRxCharacter u ch) s = .next t ∧ t = { s with uarts := t.uarts, csr := t.csr, ports := t.ports } ∧
          (∀ n, n ≠ u.val → t.uart n = s.uart n) ∧
          (x.rxq.length < 16 → t.uart u.val = { x with rxq := x.rxq ++ [e] }) ∧
          (16 ≤ x.rxq.length → t.uart u.val = { x with rxq := x.rxq.take 15 ++ [e ||| 0x00100000] } ∧
            t.rb (Reg.UART_STAT u.val) 0 = true ∧
            (t.reg (Reg.UART_CNT u.val 2)).toNat = min ((s.reg (Reg.UART_CNT u.val 2)).toNat + 1) 0xFFFFFFFF) ∧
          (fld e 19 16 ≠ 0 → t.rb (Reg.UART_STAT u.val) 1 = true ∧
            (t.reg (Reg.UART_CNT u.val 1)).toNat = min ((s.reg (Reg.UART_CNT u.val 1)).toNat + 1) 0xFFFFFFFF))) ∧
    (∀ k, ch.value k = decide (2 ≤ b2n (ch.s7.getLsbD k) + b2n (ch.s8.getLsbD k) + b2n (ch.s9.getLsbD k))) ∧
    ch.startLow = !ch.value 0 ∧
    (let n := s.rf (Reg.UART_CFG u.val) 23 20
     let d := ch.data n
     ch.startLow = true → s.rf (Reg.UART_CFG u.val) 19 18 = 0 → 5 ≤ n → n ≤ 9 →
      (∀ i, d.testBit i = (decide (i < n) && ch.value (1 + i))) ∧ bit e 31 = true ∧ fld e 8 0 = d ∧
      (bit e 16 = true ↔ ∃ k ≤ n + 1, ch.unsure k = true) ∧
      (ch.value (1 + n) = true → fld e 19 17 = 0) ∧
      (ch.value (1 + n) = false → fld e 19 17 = if d = 0 then 4 else 2)) ∧
    (let n := s.rf (Reg.UART_CFG u.val) 23 20
     let par := s.rf (Reg.UART_CFG u.val) 19 18
     let d := ch.data n
     let ones := ((List.range (n + 1)).filter fun i => ch.value (1 + i)).length
     let brk := decide (d = 0) && !ch.value (1 + n) && !ch.value (2 + n)
     ch.startLow = true → par = 1 ∨ par = 2 → 5 ≤ n → n ≤ 9 →
      bit e 31 = true ∧ fld e 8 0 = d ∧ bit e 19 = brk ∧ bit e 18 = (!brk && !ch.value (2 + n)) ∧
      bit e 17 = (!brk && decide (ones % 2 = if par = 1 then 1 else 0)) ∧
      (bit e 16 = true ↔ ∃ k ≤ n + 2, ch.unsure k = true))

/-- A read of UART_RXD by the requester that DEST names takes the oldest entry; by anyone else, or from an empty queue,
it returns zero and takes nothing (R548). EVT takes the oldest entry of a UART that delivers to it once the intake has
room, and one with a flag resets the parser of that port (R57, R59). RXFLUSH empties the queue. (The model's choice in it:
log entry 1.)

The parser (R57): a status byte becomes the running status and, once its data bytes are there, a packet on the source's group;
system bytes go to the service queue as bytes, and a real-time byte interrupts nothing; a packet and a byte enter as source
8 or 9. -/
def Obligations.UartEntriesTaken : Prop :=
  (∀ (m : MidiParser) (g : Nat) (b : Byte),
    let n := b.toNat
    let packet := fun (st d1 d2 : Nat) =>
      MidiOut.packet (BitVec.ofNat 32 (0x20000000 + g * 2 ^ 24 + st * 2 ^ 16 + d1 * 2 ^ 8 + d2))
    (0xF8 ≤ n → m.parse g b = (.byte, m)) ∧
    (0xF0 ≤ n → n < 0xF8 → (m.parse g b).1 = .byte ∧ (m.parse g b).2.status = none) ∧
    (0x80 ≤ n → n < 0xF0 → m.parse g b = (.none, { status := some b, data1 := none, sys := none })) ∧
    (n < 0x80 → m.sys.isSome = true → (m.parse g b).1 = .byte) ∧
    (n < 0x80 → m.sys = none →
      (m.status = none → m.parse g b = (.none, m)) ∧
      ∀ st, m.status = some st →
        (0xC0 ≤ st.toNat → st.toNat < 0xE0 → m.parse g b = (packet st.toNat n 0, m)) ∧
        (st.toNat < 0xC0 ∨ 0xE0 ≤ st.toNat →
          (m.data1 = none → m.parse g b = (.none, { m with data1 := some b })) ∧
          ∀ d, m.data1 = some d → m.parse g b = (packet st.toNat d.toNat n, { m with data1 := none })))) ∧
  ∀ (q : Req) (u : Fin 4) (w : Fin 2) (s : State),
    (s.arrives q (Reg.UART_RXD u.val) = true → s.ready = true →
      (∀ e l, destReq (s.uartDest u.val) = some q → (s.uart u.val).rxq = e :: l →
        exec (.uartRxdRead q u) s = .next { s.setUart u.val { s.uart u.val with rxq := l } with
          resp := { value := e.setWidth 64 } }) ∧
      (destReq (s.uartDest u.val) ≠ some q ∨ (s.uart u.val).rxq = [] →
        exec (.uartRxdRead q u) s = .next { s with resp := {} })) ∧
    (s.takes q (Reg.UART_CTRL u.val) 1 = true →
      exec (.rxflush q u) s = .next { s.setUart u.val { s.uart u.val with rxq := [] } with resp := {} }) ∧
    (s.awake = true →
      (∀ e l, s.uartDest w.val = 0 → s.evtRoom (8 + w.val) 1 = true → (s.uart w.val).rxq = e :: l →
        fld e 20 16 ≠ 0 →
        exec (.evtTakeUartEntry w) s = .next { s.setUart w.val { s.uart w.val with rxq := l } with
          midi := tput {} s.midi w.val {} }) ∧
      (∀ e l, s.uartDest w.val = 0 → s.evtRoom (8 + w.val) 1 = true → (s.uart w.val).rxq = e :: l →
        fld e 20 16 = 0 →
        let b : Byte := e.extractLsb' 0 8
        let r := (tget {} s.midi w.val).parse (s.rf (Reg.EVT_SRC (8 + w.val)) 19 16) b
        let t := { s.setUart w.val { s.uart w.val with rxq := l } with midi := tput {} s.midi w.val r.2 }
        (r.1 = .none → exec (.evtTakeUartEntry w) s = .next t) ∧
        (r.1 = .byte →
          exec (.evtTakeUartEntry w) s = .next { t.enterItem (8 + w.val) 0 (.midi b) with pending := s.pending }) ∧
        ∀ x, r.1 = .packet x →
          exec (.evtTakeUartEntry w) s = .next { t.takeUmp (8 + w.val) 0 x 0 with pending := s.pending }) ∧
      (s.uartDest w.val ≠ 0 ∨ s.evtRoom (8 + w.val) 1 = false ∨ (s.uart w.val).rxq = [] →
        exec (.evtTakeUartEntry w) s = .next s))

/-- UART_ENABLE, UART_DISABLE and ABARM complete in every state that accepts their write. EN going to 1 stores the word, arms
autobaud where MODE 0 and ABEN ask for it and starts the oldest character that waits; EN going to 0 empties both queues and
ends an autobaud measurement, the character on the line finishes, and a frame ends at once, as one that still waits for that
character does, or after its one byte in progress where it is sending one: a free value says which of a header's bytes that
is, and whether it is one (R552, R563); where EN was 0, only the word is stored. A UART that runs takes no write that leaves
EN at 1 (R565). ABARM arms autobaud in MODE 0 with ABEN and does nothing otherwise (R563). (The model's choices in it: log
entries 4 and 47.) -/
def Obligations.UartEnableAndArm : Prop :=
  ∀ (q : Req) (u : Fin 4) (v : Word) (s : State),
    let x := s.uart u.val
    (∀ w, w = (v ||| 0x80000000) → s.takes q (Reg.UART_CFG u.val) w = true →
      ∃ t, exec (.uartEnable q u v) s = .next t ∧ t = { s with csr := t.csr, uarts := t.uarts, resp := {} } ∧
        t.reg (Reg.UART_CFG u.val) = w ∧ (∀ a, a ≠ Reg.UART_CFG u.val → t.reg a = s.reg a) ∧
        (∀ n, n ≠ u.val → t.uart n = s.uart n) ∧
        (x.sends = true ∨ x.txq = [] →
          t.uart u.val = { x with abWait := decide (fld w 30 29 = 0) && bit w 15 }) ∧
        (∀ b l, x.sends = false → x.txq = b :: l →
          t.uart u.val = { x with
            abWait := decide (fld w 30 29 = 0) && bit w 15, cur := some b, txq := l
            txd := charLine (fld w 23 20) (fld w 19 18) (fld w 17 16) b.toNat })) ∧
    (s.uartOn u.val = true → s.takes q (Reg.UART_CFG u.val) (v ||| 0x80000000) = false) ∧
    (∀ w, w = (v &&& 0x7FFFFFFF) → s.takes q (Reg.UART_CFG u.val) w = true →
      let r := s.setReg (Reg.UART_CFG u.val) w
      let stopped : Uart := { x with rxq := [], txq := [], abWait := false }
      (s.uartOn u.val = false → exec (.uartDisable q u v) s = .next { r with resp := {} }) ∧
      (s.uartOn u.val = true →
        (x.frame = none → exec (.uartDisable q u v) s = .next { r.setUart u.val stopped with resp := {} }) ∧
        (∀ f, x.frame = some f → f.stage = .dropped →
          exec (.uartDisable q u v) s = .next { r.setUart u.val stopped with resp := {} }) ∧
        (∀ f, x.frame = some f → f.stage ≠ .dropped → f.onLine = false ∨ x.cur.isSome = true →
          exec (.uartDisable q u v) s = .next { r.setUart u.val { stopped with frame := none } with resp := {} }) ∧
        (∀ f, x.frame = some f → f.stage ≠ .dropped → f.onLine = true → x.cur = none →
          let sent := f.inProgress (Config.freeValue 2 s.draw)
          (∀ b, sent = some b → exec (.uartDisable q u v) s = .next { r.setUart u.val { stopped with
            frame := some { f with stage := .dropped }, txd := byteLine b } with draw := s.draw + 1, resp := {} }) ∧
          (sent = none → ∃ t, exec (.uartDisable q u v) s = .next t ∧
            t = { s with csr := t.csr, ports := t.ports, uarts := t.uarts, draw := s.draw + 1, resp := {} } ∧
            t.reg (Reg.UART_CFG u.val) = w ∧ (∀ n, n ≠ u.val → t.uart n = s.uart n) ∧
            t.uart u.val = { stopped with frame := none, txd := [] } ∧
            (s.rb (Reg.UART_IEN u.val) 3 = true →
              (fld w 28 26 = 3 → t.rb (Reg.HPx_IRQ_STAT 0) 19 = true) ∧
              (fld w 28 26 = 4 → t.rb (Reg.HPx_IRQ_STAT 1) 19 = true))) ∧
          (f.stage = .header → sent = none ∨ sent = some 0x55 ∨ sent = some f.pid) ∧
          (f.stage = .publish → sent = f.toSend.head? ∨ f.bytes = [] ∧ sent = none)))) ∧
    (s.takes q (Reg.UART_CTRL u.val) 4 = true →
      exec (.abarm q u) s = .next { (if s.uartMode u.val = 0 ∧ s.rb (Reg.UART_CFG u.val) 15 = true then
        s.setUart u.val { x with abWait := true } else s) with resp := {} })

/-- The divider measured over a 0x55 character (R561): an eighth of the four intervals' sum, rounded half up, if each
interval is within a sixteenth of a quarter of it and the divider lies in its range. An armed UART takes it, disarms and
sets ABDONE, or sets ABFAIL and stays armed (R563); a responder awaiting its sync takes it and goes on to the PID, or notes
SYNCERR and ignores the rest of the frame (R558). Any other measures nothing (log entry 1, the model's choice). -/
def Obligations.BaudMeasured : Prop :=
  ∀ (u : Fin 4) (m : SyncEdges) (s : State), s.awake = true →
    let x := s.uart u.val
    let sum := m.i1 + m.i2 + m.i3 + m.i4
    let ok := (∀ i ∈ [m.i1, m.i2, m.i3, m.i4], 64 * i ≤ 17 * sum ∧ 15 * sum ≤ 64 * i) ∧
      64 ≤ (sum + 4) / 8 ∧ (sum + 4) / 8 ≤ 1048575
    let d : Word := BitVec.ofNat 32 ((sum + 4) / 8)
    (s.uartOn u.val = true → x.abWait = true → ok →
      ∃ t, exec (.autobaudMeasure u m) s = .next t ∧ t = { s with uarts := t.uarts, csr := t.csr, ports := t.ports } ∧
        t.reg (Reg.UART_DIV u.val) = d ∧ t.uart u.val = { x with abWait := false } ∧
        t.rb (Reg.UART_STAT u.val) 3 = true ∧ ∀ n, n ≠ u.val → t.uart n = s.uart n) ∧
    (s.uartOn u.val = true → x.abWait = true → ¬ ok →
      exec (.autobaudMeasure u m) s = .next (s.orReg (Reg.UART_STAT u.val) 0x10)) ∧
    ((s.uartOn u.val && x.abWait) = false → exec (.autobaudMeasure u m) s = .next s) ∧
    (∀ f, x.frame = some f → f.stage = .sync → f.spent = false → ok →
      exec (.linSyncMeasure u m) s =
        .next ((s.setReg (Reg.UART_DIV u.val) d).setUart u.val { x with frame := some { f with stage := .pid } })) ∧
    (∀ f, x.frame = some f → f.stage = .sync → f.spent = false → f.status = 0 → ¬ ok →
      exec (.linSyncMeasure u m) s =
        .next (s.setUart u.val { x with frame := some { f with status := 7, spent := true } })) ∧
    ((∀ f, x.frame = some f → f.stage ≠ .sync ∨ f.spent = true) → exec (.linSyncMeasure u m) s = .next s)

/-- A commander's frame: FHDR with GO starts the header with the protected identifier of its ID (R553, R554) and UART_FID as
it stands then (R565); a character that R552 still lets complete goes first. A break, delimiter or 0x55 read back wrongly ends
it with status BITERR (R554, R560); when the PID has been read back its entry is stored with the PID mark, and the response is
published with its checksum, subscribed to, or skipped, as that UART_FID says (R555, R556); a PID read back wrongly is BITERR
too. Outside a header nothing happens. (The model's choices in it: log entries 1 and 47.) -/
def Obligations.LinCommander : Prop :=
  ∀ (q : Req) (u : Fin 4) (id : BitVec 6) (h : HeaderEcho) (s : State),
    let x := s.uart u.val
    let e := s.charEntry u.val h.pid ||| 0x00200000
    let line := h.breakOk (13 + s.rf (Reg.UART_CFG u.val) 13 11) (1 + s.rf (Reg.UART_CFG u.val) 10 10) && h.sync.echoes 0x55
    (s.takes q (Reg.UART_FHDR u.val) (0x80000000 ||| id.setWidth 32) = true →
      exec (.fhdrGo q u id) s = .next { s.setUart u.val { x with
        frame := some { stage := .header, pid := pidOf id, fids := (List.range 64).map fun i => s.reg (Reg.UART_FID u.val i) }
        txd := if x.cur.isSome then x.txd else s.headerLine u.val (pidOf id) } with resp := {} }) ∧
    (s.awake = true → x.cur = none → ∀ f, x.frame = some f → f.stage = .header → f.spent = false →
      ∃ t g, exec (.linHeaderSent u h) s = .next t ∧ t = { s with uarts := t.uarts, csr := t.csr, ports := t.ports } ∧
        (∀ n, n ≠ u.val → t.uart n = s.uart n) ∧ (t.uart u.val).frame = some g ∧
        (line = false → g.spent = true ∧ (t.uart u.val).rxq = x.rxq ∧ (f.status = 0 → g.status = 4)) ∧
        (line = true → x.rxq.length < 16 → (t.uart u.val).rxq = x.rxq ++ [e]) ∧
        (line = true → h.pid.echoes f.pid = false → g.spent = true ∧ (f.status = 0 → g.status = 4)) ∧
        (line = true → h.pid.echoes f.pid = true → fld e 19 16 = 0 →
          let w := f.fids.getD (f.pid.toNat % 64) 0
          g.status = f.status ∧ g.len = fld w 2 0 + 1 ∧
          (fld w 31 30 = 1 → g.stage = .publish ∧ g.spent = false ∧
            g.toSend = s.ftxBytes u.val (fld w 2 0 + 1) ++
              [linChecksum (bit w 29 && decide (f.pid.toNat % 64 < 60)) f.pid (s.ftxBytes u.val (fld w 2 0 + 1))] ∧
            (t.uart u.val).txd = byteLine (g.toSend.headD 0)) ∧
          (fld w 31 30 = 2 → g.stage = .subscribe ∧ g.spent = false) ∧
          (fld w 31 30 = 0 → g.spent = true))) ∧
    ((∀ f, x.frame = some f → f.stage ≠ .dropped ∧ (f.stage ≠ .header ∨ f.spent = true ∨ x.cur.isSome = true)) →
      exec (.linHeaderSent u h) s = .next s) ∧
    (∀ i, i < 6 → (pidOf id).getLsbD i = id.getLsbD i) ∧
    (pidOf id).getLsbD 6 =
      Bool.xor (Bool.xor (Bool.xor (id.getLsbD 0) (id.getLsbD 1)) (id.getLsbD 2)) (id.getLsbD 4) ∧
    (pidOf id).getLsbD 7 =
      !(Bool.xor (Bool.xor (Bool.xor (id.getLsbD 1) (id.getLsbD 3)) (id.getLsbD 4)) (id.getLsbD 5))

/-- A responder's frame: a break starts one, with UART_FID as it stands then (R565), ending a frame in progress with status
ABORTED (R558, R560), and a response that it cuts off leaves the transmitter idle (R564); a PID with wrong parity ends it with
status PIDERR, one marked to be ignored leaves no frame (R555); the time limit of a subscribed response gives NORESP before
the start bit of its first byte and INCOMPLETE after it (R557, R560). (The model's choices in it: log entries 1 and 47.) -/
def Obligations.LinResponder : Prop :=
  ∀ (u : Fin 4) (ch : RxChar) (start : Option (BitVec 3)) (s : State), s.awake = true →
    let x := s.uart u.val
    let e := s.charEntry u.val ch ||| 0x00200000
    let pid : Byte := BitVec.ofNat 8 (fld e 7 0)
    let first : LinFrame := { stage := .sync, fids := (List.range 64).map fun i => s.reg (Reg.UART_FID u.val i) }
    (s.uartOn u.val = true → s.uartMode u.val = 2 →
      (x.frame = none → exec (.linBreakDetect u) s =
        .next (s.setUart u.val { x with frame := some first, txd := if x.cur.isSome then x.txd else [] })) ∧
      (∀ f, x.frame = some f → ∃ t, exec (.linBreakDetect u) s = .next t ∧
        t = { s with uarts := t.uarts, csr := t.csr, ports := t.ports } ∧
        (t.uart u.val).frame = some first ∧ (∀ n, n ≠ u.val → t.uart n = s.uart n) ∧
        (x.rxq.length < 16 → f.spent = false → f.status = 0 → f.stage ≠ .dropped →
          (t.uart u.val).rxq = x.rxq ++ [0x80400008]) ∧
        (f.stage = .publish → f.spent = false → x.cur = none → x.txq = [] → s.rb (Reg.UART_IEN u.val) 3 = true →
          (s.uartDest u.val = 3 → t.rb (Reg.HPx_IRQ_STAT 0) 19 = true) ∧
          (s.uartDest u.val = 4 → t.rb (Reg.HPx_IRQ_STAT 1) 19 = true)))) ∧
    ((s.uartOn u.val && decide (s.uartMode u.val = 2)) = false → exec (.linBreakDetect u) s = .next s) ∧
    (∀ f, x.frame = some f → f.stage = .pid → f.spent = false →
      let w := f.fids.getD (pid.toNat % 64) 0
      (ch.startLow = false → exec (.linPidReceived u ch) s =
        .next ((s.count (Reg.UART_CNT u.val 0)).orReg (Reg.UART_STAT u.val) 4)) ∧
      (ch.startLow = true → pid ≠ pidOf (BitVec.ofNat 6 (pid.toNat % 64)) → f.status = 0 → fld e 19 16 = 0 →
        ∃ t, exec (.linPidReceived u ch) s = .next t ∧ t = { s with uarts := t.uarts, csr := t.csr, ports := t.ports } ∧
          (t.uart u.val).frame = some { f with pid := pid, status := 6, spent := true } ∧
          (x.rxq.length < 16 → (t.uart u.val).rxq = x.rxq ++ [e])) ∧
      (ch.startLow = true → pid = pidOf (BitVec.ofNat 6 (pid.toNat % 64)) → fld w 31 30 = 0 →
        exec (.linPidReceived u ch) s = .next (s.setUart u.val { x with frame := none })) ∧
      (ch.startLow = true → pid = pidOf (BitVec.ofNat 6 (pid.toNat % 64)) →
        ∀ dir, fld w 31 30 = dir → dir = 1 ∨ dir = 2 →
        ∃ t g, exec (.linPidReceived u ch) s = .next t ∧
          t = { s with uarts := t.uarts, csr := t.csr, ports := t.ports } ∧
          (t.uart u.val).frame = some g ∧ g.pid = pid ∧ g.stage = (if dir = 1 then .publish else .subscribe) ∧
          (x.rxq.length < 16 → (t.uart u.val).rxq = x.rxq ++ [e]))) ∧
    (∀ f, x.frame = some f → f.stage = .subscribe → f.spent = false → f.status = 0 →
      let begun := (start.map fun b => !majority (b.getLsbD 0) (b.getLsbD 1) (b.getLsbD 2)).getD false
      exec (.linResponseTimeout { u := u, start := start }) s = .next (s.setUart u.val { x with
        frame := some { f with status := if f.bytes = [] ∧ begun = false then 2 else 3, spent := true } })) ∧
    ((∀ f, x.frame = some f → f.stage ≠ .subscribe ∨ f.spent = true) → exec (.linResponseTimeout { u := u, start := start }) s = .next s)

/-- A subscribed response byte is stored and joins the frame's bytes; after the last, a wrong checksum gives status CHKERR
(R555, R556, R560). A published byte is read back and stored in the same way, and the next one follows; a mismatch stops the
response with status BITERR (R554, R559). A byte with a noise, frame or break flag gives status FRAMING (R560). The end of a
frame stores its END entry with the frame's status, sets the frame flag of UART_STAT, and a status other than 0 is counted and
sets the error flag (R559, R560); while something is still awaited nothing happens. (The model's choices in it: log entries 1
and 47.) -/
def Obligations.LinFrameEnds : Prop :=
  ∀ (u : Fin 4) (ch : RxChar) (s : State), s.awake = true →
    let x := s.uart u.val
    let e := s.charEntry u.val ch
    let b : Byte := BitVec.ofNat 8 (fld e 7 0)
    (∀ f, x.frame = some f → f.stage = .subscribe → f.spent = false → s.uartOn u.val = true → x.abWait = false →
      s.uartMode u.val ≠ 0 → ch.startLow = true →
      ∃ t g, exec (.uartRxCharacter u ch) s = .next t ∧ t = { s with uarts := t.uarts, csr := t.csr, ports := t.ports } ∧
        (∀ n, n ≠ u.val → t.uart n = s.uart n) ∧ (t.uart u.val).frame = some g ∧ g.bytes = f.bytes ++ [b] ∧
        (x.rxq.length < 16 → (t.uart u.val).rxq = x.rxq ++ [e]) ∧
        (g.bytes.length ≠ f.len + 1 → g.spent = false) ∧
        (g.bytes.length = f.len + 1 → g.spent = true ∧
          (f.status = 0 → fld e 19 16 = 0 →
            g.status = if b = linChecksum f.enhanced f.pid (g.bytes.take f.len) then 0 else 1)) ∧
        ((bit e 16 || bit e 18 || bit e 19) = true → f.status = 0 → g.status = 5)) ∧
    (∀ f, x.frame = some f → f.stage = .publish → f.spent = false → s.uartOn u.val = true → x.abWait = false →
      s.uartMode u.val ≠ 0 →
      let same := ch.echoes (f.toSend.headD 0)
      ∃ t g, exec (.uartRxCharacter u ch) s = .next t ∧ t = { s with uarts := t.uarts, csr := t.csr, ports := t.ports } ∧
        (∀ n, n ≠ u.val → t.uart n = s.uart n) ∧ (t.uart u.val).frame = some g ∧ g.bytes = f.bytes ++ [b] ∧
        (x.rxq.length < 16 → (t.uart u.val).rxq = x.rxq ++ [e]) ∧
        (same = true → g.toSend = f.toSend.drop 1 ∧ g.spent = (f.toSend.drop 1).isEmpty ∧
          (f.status = 0 → g.status = if bit e 16 || bit e 18 || bit e 19 then 5 else 0)) ∧
        (same = false → g.spent = true ∧ (f.status = 0 → g.status = 4)) ∧
        (g.spent = false → x.cur = none → (t.uart u.val).txd = byteLine (g.toSend.headD 0)) ∧
        (g.spent = true → x.cur = none → (t.uart u.val).txd = []) ∧ (x.cur.isSome = true → (t.uart u.val).txd = x.txd)) ∧
    (∀ f, x.frame = some f → f.spent = true → f.status < 256 →
      ∃ t, exec (.linFrameEnd u) s = .next t ∧ t = { s with uarts := t.uarts, csr := t.csr, ports := t.ports } ∧
        (∀ n, n ≠ u.val → t.uart n = s.uart n) ∧ (t.uart u.val).frame = none ∧
        (x.rxq.length < 16 → (t.uart u.val).rxq = x.rxq ++ [BitVec.ofNat 32 (0x80400000 + f.status)]) ∧
        t.rb (Reg.UART_STAT u.val) 5 = true ∧
        (f.status ≠ 0 → t.rb (Reg.UART_STAT u.val) 1 = true ∧
          (t.reg (Reg.UART_CNT u.val 3)).toNat = min ((s.reg (Reg.UART_CNT u.val 3)).toNat + 1) 0xFFFFFFFF)) ∧
    ((∀ f, x.frame = some f → f.spent = false) → exec (.linFrameEnd u) s = .next s)


/-! ### Converters -/

/-- A load strobe copies the holding register of each channel whose group it names and whose group takes its strobes from
that source (R426, R427): DAC_STROBE writes are source 1, an edge of DAC_LOAD is source 2, and the PV8K1-C has no such
pin. No other register of a channel changes, and nothing outside the converters. Before start-up's step 4 the edge does nothing
(log entry 1, the model's choice). -/
def Obligations.DacLoadStrobes : Prop :=
  ∀ (q : Req) (g1 g0 : Bool) (s : State),
    (s.takes q Reg.DAC_STROBE (BitVec.ofNat 32 (2 * b2n g1 + b2n g0)) = true →
      ∃ t, exec (.dacStrobe q g1 g0) s = .next t ∧ t = { s with dac := t.dac, resp := {} } ∧
        ∀ c, c < 8 → t.dacCh c = { s.dacCh c with
          input := if (if c < 4 then g0 else g1) = true ∧ s.rf (Reg.DAC_GCFG (c / 4)) 5 4 = 1
            then (s.dacCh c).holding else (s.dacCh c).input }) ∧
    (s.awake = true → s.variant = .f →
      ∃ t, exec .dacLoadEdge s = .next t ∧ t = { s with dac := t.dac } ∧
        ∀ c, c < 8 → t.dacCh c = { s.dacCh c with
          input := if s.rf (Reg.DAC_GCFG (c / 4)) 5 4 = 2 then (s.dacCh c).holding else (s.dacCh c).input }) ∧
    (s.awake = false ∨ s.variant = .c → exec .dacLoadEdge s = .next s)

/-- DAC_CLR_N (R431, R432, R450): from start-up's step 3 on, whether or not the media clock runs, its synchroniser takes a
level that is not the one it last took; a low one sets DAC_STAT.CLR and counts; the channels answer the change of their
sources. Before that step, or with the level last taken, only the pin's level is noted; any level on the PV8K1-C changes
nothing. MUTE_RAMP_END (R445): after the N frames of the ramp, counted from its start, every live channel holds zero, and its
source is MUTE as it was during the ramp. (The model's choices in it: log entries 1, 42 and 60.) -/
def Obligations.DacClearAndMute : Prop :=
  ∀ (level : Bool) (s : State),
    (s.variant = .f → s.clrSeen ≠ level → s.awake = true ∨ s.phase = .waitRecords →
      ∃ t, exec (.dacClrChange level) s = .next t ∧ s.dacAnswers t ∧
        t = { s with clrPin := level, clrSeen := level, dac := t.dac, csr := t.csr, ports := t.ports } ∧
        (level = true → t.csr = s.csr ∧ t.ports = s.ports) ∧
        (level = false → t.rb Reg.DAC_STAT 3 = true ∧
          (t.reg (Reg.DAC_CNT 3)).toNat = min ((s.reg (Reg.DAC_CNT 3)).toNat + 1) 0xFFFFFFFF ∧
          ∀ p, p < 2 → t.rb (Reg.HPx_IRQ_STAT p) 13 = true)) ∧
    (s.variant = .f → s.clrSeen = level ∨ (s.awake = false ∧ s.phase ≠ .waitRecords) →
      exec (.dacClrChange level) s = .next { s with clrPin := level }) ∧
    (s.variant = .c → exec (.dacClrChange level) s = .next s) ∧
    (∀ n, s.mute = some (n, n) →
      ∃ t, exec .muteRampEnd s = .next t ∧ t = { s with mute := some (n + 1, n), dac := t.dac } ∧
        (∀ c, c < s.dacChannels → t.dacCh c =
          if s.rb Reg.DAC_CTRL 0 = true then { s.dacCh c with taps := List.replicate 68 0 } else s.dacCh c) ∧
        (s.rb Reg.DAC_CTRL 0 = true → ∀ c, t.dacSrc c = 6 ∧ s.dacSrc c = 6)) ∧
    ((∀ n, s.mute ≠ some (n, n)) → exec .muteRampEnd s = .next s)

/-- The deglitcher releases a hold whose settle time has passed while the read-out is valid, and counts it unless it
is the hold of an invalid frame (R434, R440, R441). The comparators as read at a strobe are
shown in DAC_CH_STAT; a condition qualifies at the DEB + 1st strobe in a row at which it is present while supervision acts,
and is then latched, counted and reported, once until it has gone (R442, R443). FLATCH clears only with both comparators released
(R444). (The model's choices in it: log entries 1 and 13.) -/
def Obligations.DacSupervision : Prop :=
  ∀ (q : Req) (c : Fin 8) (ol win : Bool) (s : State),
    let h := s.dacCh c.val
    let a := Reg.DAC_CH_STAT c.val
    (s.awake = true → h.hold = true → h.settle = 0 → s.col.readoutInvalid = false → c.val < s.dacChannels →
      ∃ t, exec (.deglitchRelease c) s = .next t ∧ t = { s with dac := t.dac, csr := t.csr } ∧
        t.dacCh c.val = { h with hold := false, changeHold := false } ∧ (∀ k, k ≠ c.val → t.dacCh k = s.dacCh k) ∧
        (h.changeHold = true → t.csr = s.csr) ∧
        (h.changeHold = false → (∀ b, b ≠ Reg.DAC_CNT 1 → t.reg b = s.reg b) ∧
          (t.reg (Reg.DAC_CNT 1)).toNat = min ((s.reg (Reg.DAC_CNT 1)).toNat + 1) 0xFFFFFFFF)) ∧
    (s.awake = false ∨ h.hold = false ∨ h.settle ≠ 0 ∨ s.col.readoutInvalid = true ∨ s.dacChannels ≤ c.val →
      exec (.deglitchRelease c) s = .next s) ∧
    (s.clocked = true → s.now ≠ none → c.val < s.dacChannels →
      let again := decide (h.cmpAt = some s.strobes)
      let next := decide (h.cmpAt = some (s.strobes - 1))
      let deb := s.rf (Reg.DAC_CH_CFG c.val) 25 22
      let sup := s.rb (Reg.DAC_CH_CFG c.val) 28 && decide (s.dacSrc c.val ≠ 0) && decide (s.dacSrc c.val ≠ 6)
      ∃ t y, exec (.faultQualify c ol win) s = .next t ∧
        t = { s with csr := t.csr, ports := t.ports, dac := t.dac } ∧ (s.setDacCh c.val y).dacAnswers t ∧
        y = { h with cmpAt := some s.strobes, openRun := y.openRun, winRun := y.winRun, openDone := y.openDone, winDone := y.winDone } ∧
        ((sup && ol) = false → y.openRun = 0 ∧ y.openDone = false) ∧ ((sup && win) = false → y.winRun = 0 ∧ y.winDone = false) ∧
        (again = false → (sup && ol) = true → y.openRun = if next then h.openRun + 1 else 1) ∧
        (again = false → (sup && win) = true → y.winRun = if next then h.winRun + 1 else 1) ∧
        (again = true → (sup && ol) = true → y.openRun = max h.openRun 1) ∧
        (again = true → (sup && win) = true → y.winRun = max h.winRun 1) ∧
        t.rf a 5 4 = 2 * b2n ol + b2n win ∧
        (∀ b, b ≠ a → b ≠ Reg.DAC_CNT 2 → b ≠ Reg.DAC_STAT → b ≠ Reg.HPx_IRQ_STAT 0 → b ≠ Reg.HPx_IRQ_STAT 1 →
          t.reg b = s.reg b) ∧
        (let was1 := h.openDone && decide (0 < y.openRun) && (again || next)
         let was2 := h.winDone && decide (0 < y.winRun) && (again || next)
         let n1 := b2n (decide (deb < y.openRun) && !was1)
         let n2 := b2n (decide (deb < y.winRun) && !was2)
         (n1 = 1 → t.rb a 1 = true) ∧ (n2 = 1 → t.rb a 2 = true) ∧
         (0 < n1 + n2 →
          (s.rf (Reg.DAC_CH_CFG c.val) 27 26 = 1 ∨ s.rf (Reg.DAC_CH_CFG c.val) 27 26 = 2 → t.rb a 3 = true) ∧
          t.rb Reg.DAC_STAT 2 = true ∧ (∀ p, p < 2 → t.rb (Reg.HPx_IRQ_STAT p) 13 = true) ∧
          (t.reg (Reg.DAC_CNT 2)).toNat = min ((s.reg (Reg.DAC_CNT 2)).toNat + n1 + n2) 0xFFFFFFFF) ∧
         (n1 + n2 = 0 → t = (s.setReg a (setFld (s.reg a) 5 4 (2 * b2n ol + b2n win))).setDacCh c.val y))) ∧
    (s.clocked = false ∨ s.now = none ∨ s.dacChannels ≤ c.val → exec (.faultQualify c ol win) s = .next s) ∧
    (s.takes q a 8 = true →
      ∃ t, exec (.flatchClear q c) s = .next t ∧ t = { s with csr := t.csr, dac := t.dac, resp := {} } ∧
        s.dacAnswers t ∧ (∀ b, b ≠ a → t.reg b = s.reg b) ∧
        t.reg a = (if s.rf a 5 4 = 0 then s.reg a &&& 0xFFFFFFF7 else s.reg a))


/-! ### Transactions -/

/-- The three triggers of TXN_CTRL, when accepted (R531): OPEN starts an empty transaction; COMMIT takes TXN_TIME and a place
in the order of COMMITs and enters CHECKING, its outcome that of R535, where an overflow is the first failure; ABORT returns
to IDLE, and a ring's TXN_COMMIT whose check it ends completes with TXNSTATE. No other slot changes. (The model's choices in
it: log entries 8 and 21.) -/
def Obligations.TransactionTriggers : Prop :=
  ∀ (q : Req) (i : Fin 4) (s : State),
    let x := s.txn i.val
    let raw := s.reg64 (Reg.TXN_TIME i.val)
    (s.takes q (Reg.TXN_CTRL i.val) 1 = true →
      exec (.txnCtrlOpen q i) s = .next { s.setTxn i.val { st := .opened } with resp := {} }) ∧
    (s.takes q (Reg.TXN_CTRL i.val) 2 = true →
      ∃ t, exec (.txnCtrlCommit q i) s = .next t ∧
        t = { s with txns := t.txns, commitSeq := s.commitSeq + 1, resp := {} } ∧
        (∀ k, k ≠ i.val → t.txn k = s.txn k) ∧ (t.txn i.val).st = .checking ∧ (t.txn i.val).entries = x.entries ∧
        (t.txn i.val).time = (if raw.toNat = 2 ^ 64 - 1 then none else some raw.toNat) ∧
        (t.txn i.val).commitSeq = s.commitSeq ∧ (t.txn i.val).ring = none ∧
        (t.txn i.val).found = s.commitCheck i.val (t.txn i.val).time ∧ (x.ovf = true → (t.txn i.val).found.1 = 1)) ∧
    (s.takes q (Reg.TXN_CTRL i.val) 4 = true →
      ((∀ r, x.ring = some r → (s.ring i.val r).busy = none) →
        exec (.txnCtrlAbort q i) s = .next { s.setTxn i.val { x with st := .idle, ring := none } with resp := {} }) ∧
      (∀ r slot d, x.ring = some r → (s.ring i.val r).busy = some (slot, d) →
        exec (.txnCtrlAbort q i) s = .next { ((s.setTxn i.val { x with st := .idle, ring := none }).setRing i.val r
          { s.ring i.val r with busy := none }).complete i.val r d slot 5 0 0 with resp := {} }))

/-- Staging (R533, R534): an accepted write of the address, or of address and value together, appends the pair; the write
that finds 4,096 entries is refused with cause 5 and marks the overflow. -/
def Obligations.TransactionStaging : Prop :=
  ∀ (q : Req) (i : Fin 4) (addr : Word) (v : Dword) (s : State),
    let x := s.txn i.val
    let lo : Word := v.setWidth 32
    let hi : Word := (v >>> 32).setWidth 32
    (s.takes q (Reg.TXN_SDATA i.val + 4) addr = true →
      exec (.txnSaddrWrite q i addr) s = .next { s.setTxn i.val { x with
        entries := x.entries ++ [(addr.toNat, s.reg (Reg.TXN_SDATA i.val))] } with resp := {} }) ∧
    (s.takes q (Reg.TXN_SDATA i.val) lo = true → s.takes q (Reg.TXN_SDATA i.val + 4) hi = true →
      exec (.txnSdataStage q i v) s = .next { (s.setReg (Reg.TXN_SDATA i.val) lo).setTxn i.val { x with
        entries := x.entries ++ [(hi.toNat, lo)] } with resp := {} }) ∧
    (s.arrives q (Reg.TXN_SDATA i.val + 4) = true → s.ready = true → Req.ix q = i.val → s.stageCause i.val addr.toNat = 5 →
      s.inWriteSet none (Reg.TXN_SDATA i.val + 4) = false →
      ∃ t, exec (.txnSaddrWrite q i addr) s = .next t ∧ t.txn i.val = { x with ovf := true } ∧
        (∀ k, k ≠ i.val → t.txn k = s.txn k) ∧ t.resp.cause = 5)

/-- The end of the checks (R532): a transaction that failed none is PENDING, one that failed is FAILED, shows the first
failure in TXN_ERR (R531) and sets the cause of vector 7 of its host; the ring command that waited for it completes with OK or
TXNFAIL, code and index (R521). Outside CHECKING nothing happens (log entry 1, the model's choice). At a frame strobe F a due
transaction, one that is PENDING with no TIME or with TIME's frame not after F, is checked again (R537): where a check fails
it is FAILED with APPLY set and none of its entries takes effect, else all of them take effect together and it is APPLIED,
with LATE and SYS_DET.TXN_LATE where its frame has passed (R537, R538), and the deglitcher meets the converters as all of them
leave them (R434); either way its host has the cause of vector 7 (R532). Due transactions come in the order of their COMMITs
(R537). -/
def Obligations.TransactionChecked : Prop :=
  (∀ (f : Nat) (e : Nat × Txn) (s : State),
    let t := State.applyTxn f s e
    let checked := s.txnCheck (reqOf e.1) e.2.entries ((e.2.time.map (· / 256)).getD f)
    let late := (e.2.time.map fun x => decide (x / 256 < f)).getD false
    let u := (e.2.entries.foldl (State.applyEntry (reqOf e.1)) s).dacSourceChanged s.dacSources
    (∀ c k, checked = some (c, k) → t = { s with txns := t.txns, csr := t.csr, ports := t.ports } ∧
      t.txn e.1 = { e.2 with st := .failed, errCode := c, errIndex := k, errApply := true } ∧
      (∀ k, k ≠ e.1 → t.txn k = s.txn k) ∧ (e.1 < 2 → t.rb (Reg.HPx_IRQ_STAT e.1) 7 = true)) ∧
    (checked = none → t = { u with txns := t.txns, csr := t.csr, ports := t.ports } ∧
      t.txn e.1 = { e.2 with st := .applied, late := late } ∧ (∀ k, k ≠ e.1 → t.txn k = u.txn k) ∧
      (e.1 < 2 → t.rb (Reg.HPx_IRQ_STAT e.1) 7 = true) ∧ (late = true → t.rb Reg.SYS_DET 5 = true) ∧
      ∀ a, a < 0x07000000 ∨ 0x07030000 ≤ a → t.reg a = u.reg a) ∧
    (e ∈ s.dueTxns f ↔ e ∈ s.txns ∧ e.2.st = .pending ∧ ∀ x, e.2.time = some x → x / 256 ≤ f) ∧
    ((s.dueTxns f).map fun e => e.2.commitSeq).Pairwise (· ≤ ·)) ∧
  ∀ (i : Fin 4) (s : State),
    let x := s.txn i.val
    (x.st ≠ .checking → exec (.txnCheckDone i) s = .next s) ∧
    (x.st = .checking → x.found.1 = 0 → x.ring = none →
      exec (.txnCheckDone i) s = .next (s.setTxn i.val { x with st := .pending, ring := none })) ∧
    (x.st = .checking → x.found.1 ≠ 0 → x.ring = none →
      ∃ t, exec (.txnCheckDone i) s = .next t ∧ t = { s with txns := t.txns, csr := t.csr, ports := t.ports } ∧
        t.txn i.val = { x with st := .failed, ring := none, errCode := x.found.1, errIndex := x.found.2 } ∧
        t.txnErr i.val = BitVec.ofNat 32 (x.found.1 * 2 ^ 24 + b2n x.errApply * 2 ^ 23 + x.found.2) ∧ (∀ k, k ≠ i.val → t.txn k = s.txn k) ∧
        (i.val < 2 → t.rb (Reg.HPx_IRQ_STAT i.val) 7 = true)) ∧
    (∀ r slot d, x.st = .checking → x.ring = some r → (s.ring i.val r).busy = some (slot, d) →
      ∃ t, exec (.txnCheckDone i) s = .next t ∧ t = { s with txns := t.txns, csr := t.csr, ports := t.ports } ∧
        (t.txn i.val).st = (if x.found.1 = 0 then .pending else .failed) ∧
        (t.ring i.val r).busy = none ∧
        (t.ring i.val r).done = (s.ring i.val r).done ++
          [if x.found.1 = 0 then completionBytes d slot 0 0 3 else completionBytes d slot 4 x.found.1 x.found.2])


/-! ### Ring pairs -/

/-- Doorbells (R484, R491, R496, R500): an index of the ring is stored, and slots that it takes back are no longer posted
(R492); one outside it stops the ring with cause 2 unless it has stopped, and signals vector 4 (R494, R495); both bring the
link out of L1. The completion head is stored. A Stage Engine's doorbell sets its bit in HPx_SEDB and the cause of vector 24.
(The model's choices in it: log entry 20.) -/
def Obligations.HostDoorbells : Prop :=
  ∀ (p : Port) (r : Fin 4) (e : Fin 2) (v : Word) (s : State),
    let n := Port.ix p
    let up := s.setPort n (s.port n).wake
    let head := s.rf (Reg.HPx_RING_HEAD n r.val) 11 0
    (s.takes (Port.req p) (Reg.HPx_RING_DB n r.val) v = true → fld v 11 0 < 2 ^ s.rf (Reg.HPx_RING_CFG n r.val) 3 0 →
      exec (.ringDoorbell p r v) s = .next { (up.setReg (Reg.HPx_RING_DB n r.val) v).ringTrim n r.val with resp := {} } ∧
      (((up.setReg (Reg.HPx_RING_DB n r.val) v).ringTrim n r.val).ring n r.val).fetched =
        (s.ring n r.val).fetched.take (ringDist (s.ringN n r.val) head (fld v 11 0))) ∧
    (s.takes (Port.req p) (Reg.HPx_RING_DB n r.val) v = true → 2 ^ s.rf (Reg.HPx_RING_CFG n r.val) 3 0 ≤ fld v 11 0 →
      (s.rb (Reg.HPx_RING_STAT n r.val) 31 = true → exec (.ringDoorbell p r v) s = .next { up with resp := {} }) ∧
      (s.rb (Reg.HPx_RING_STAT n r.val) 31 = false →
        ∃ t, exec (.ringDoorbell p r v) s = .next t ∧
          t = { s with csr := t.csr, ports := t.ports, txns := t.txns, resp := {} } ∧
          t.reg (Reg.HPx_RING_STAT n r.val) = 0x80000002 ∧ (t.ring n r.val).fetched = [] ∧
          (t.ring n r.val).busy = none ∧ t.rb (Reg.HPx_IRQ_STAT n) 4 = true ∧
          (t.port n).out = (s.port n).out ++ s.vectorOut n 4 ∧
          (t.port n).pendVec = (s.port n).pendVec ||| s.vectorHeld n 4)) ∧
    (s.takes (Port.req p) (Reg.HPx_CPL_DB n r.val) v = true →
      ∃ t, exec (.completionHeadWrite p r v) s = .next t ∧ t = { s with csr := t.csr, resp := {} } ∧
        t.rf (Reg.HPx_CPL_DB n r.val) 11 0 = fld v 11 0 ∧ ∀ a, a ≠ Reg.HPx_CPL_DB n r.val → t.reg a = s.reg a) ∧
    (s.takes (seReq e.val) (Reg.HPx_SEDB n) (onebit e.val) = true →
      exec (.seDoorbell e p) s = .next { (s.orReg (Reg.HPx_SEDB n) (onebit e.val)).cause n 24 with
        resp := {}, pending := s.pending })

/-- RING_ENABLE, RING_DISABLE and IRQ_ENABLE_WRITE complete in every state that accepts their write (R490 to R494, R523): any
write of EN = 1 sets every index of the pair and the expected alive value to 0, and EN going from 0 to 1 clears a stop; a
write of EN = 0 stores the word and nothing else. The word of HPx_IRQ_EN is stored, and each vector that it enables while its
cause is set is signalled, lowest first: its message goes out where messages may be sent, D0, Bus Master Enable and MSI-X
Enable set and nothing masked, and else its pending bit is set (R494, R495). A one written
to a cause in HPx_IRQ_STAT clears it, and what its vector holds pending (R493, R494). (The model's choices in it: log entry 21.) -/
def Obligations.RingEnables : Prop :=
  ∀ (p : Port) (r : Fin 4) (depth : BitVec 4) (v : Word) (s : State),
    let n := Port.ix p
    let cfg := Reg.HPx_RING_CFG n r.val
    (s.takes (Port.req p) cfg (ringCfg true depth) = true →
      ∃ t, exec (.ringEnable p r depth) s = .next t ∧
        t = { s with csr := t.csr, ports := t.ports, txns := t.txns, resp := {} } ∧
        t.reg cfg = BitVec.ofNat 32 (0x80000000 + depth.toNat) ∧ t.ring n r.val = {} ∧
        (∀ k, k < 4 → k ≠ r.val → t.ring n k = s.ring n k) ∧
        t.reg (Reg.HPx_RING_STAT n r.val) = (if s.rb cfg 31 = true then s.reg (Reg.HPx_RING_STAT n r.val) else 0) ∧
        t.reg (Reg.HPx_RING_DB n r.val) = 0 ∧ t.reg (Reg.HPx_RING_HEAD n r.val) = 0 ∧
        t.reg (Reg.HPx_CPL_DB n r.val) = 0 ∧ t.reg (Reg.HPx_CPL_TAIL n r.val) = 0 ∧
        ((s.ring n r.val).busy = none → t.txns = s.txns)) ∧
    (s.takes (Port.req p) cfg (ringCfg false depth) = true →
      exec (.ringDisable p r depth) s = .next { s.setReg cfg (BitVec.ofNat 32 depth.toNat) with resp := {} }) ∧
    (s.takes (Port.req p) (Reg.HPx_IRQ_EN n) v = true →
      ∃ t, exec (.irqEnableWrite p v) s = .next t ∧ t = { s with csr := t.csr, ports := t.ports, resp := {} } ∧
        t.reg (Reg.HPx_IRQ_EN n) = v ∧ (∀ a, a ≠ Reg.HPx_IRQ_EN n → t.reg a = s.reg a) ∧
        t.port (1 - n) = s.port (1 - n) ∧
        (let h := s.port n
         let fresh := (List.range 26).filter fun k =>
           bit v k && !s.rb (Reg.HPx_IRQ_EN n) k && s.rb (Reg.HPx_IRQ_STAT n) k
         (∀ k, s.msixReady n k = true ↔ h.d3hot = false ∧ h.busMaster = true ∧ h.msixEnable = true ∧
           h.msixMaskAll = false ∧ s.rb (Reg.MSIX_TABLE n (4 * k + 3)) 0 = false) ∧
         (t.port n).out = h.out ++ (fresh.filter (s.msixReady n)).map PortOut.msix ∧
         (∀ k, k < 32 → bit (t.port n).pendVec k = (bit h.pendVec k || (fresh.contains k && !s.msixReady n k))) ∧
         t.port n = { h with out := (t.port n).out, pendVec := (t.port n).pendVec, link := (t.port n).link, clkreqHigh := (t.port n).clkreqHigh } ∧
         (fresh = [] → t.ports = s.ports))) ∧
    (s.takes (Port.req p) (Reg.HPx_IRQ_STAT n) v = true →
      ∃ t, exec (.registerWrite { accesses := [⟨Port.req p, Reg.HPx_IRQ_STAT n, 4, some (v.setWidth 64)⟩] }) s = .next t ∧
        t = { s with csr := t.csr, ports := t.ports, resp := {} } ∧
        (∀ k, k < 26 → t.rb (Reg.HPx_IRQ_STAT n) k = (s.rb (Reg.HPx_IRQ_STAT n) k && !bit v k)) ∧
        (∀ a, a ≠ Reg.HPx_IRQ_STAT n → t.reg a = s.reg a) ∧ t.port (1 - n) = s.port (1 - n) ∧
        t.port n = { s.port n with pendVec := (s.port n).pendVec &&& ~~~ v })

/-- Descriptor reads (R486, R491): within what the device may ask for, the slots brought join those waiting and the next fetch
goes on behind them; an error stops the ring with cause 1 and the cause of vector 4, and is noted in the status bits of its
kind; a poisoned completion or a timeout that is not masked enters Advanced Error Reporting and, where enabled, sends its
error message (R476), and with Completion Timeout Disable no read times out (R478); a read that the device did not make
changes nothing. Completions (R487): the oldest is written at the tail of the completion ring, then the new tail to its
shadow, then the vector is signalled: where its cause rises while it is enabled, its message follows on the link, or its
pending bit is set where messages may not be sent (R494, R495); with none waiting or no free slot nothing happens. (The
model's choices in it: log entries 1, 4, 20, 21, 33 and 35.) -/
def Obligations.RingTransfers : Prop :=
  ∀ (p : Port) (r : Fin 4) (d : List (List Byte)) (s : State),
    let n := Port.ix p
    let g := s.ring n r.val
    let h := s.port n
    let may := s.ringLive n r.val && s.portSends n && decide (0 < s.fetchRoom n r.val)
    let fails : HostPort → Nat → List PortOut → Prop := fun y k e =>
      let fatal := bit (h.aerWord 0x10C) k
      y.cfgBit 0x78 (if fatal then 18 else 17) = true ∧ bit (y.aerWord 0x104) k = true ∧
      e = if !bit (h.aerWord 0x108) k && (h.cfgBit 0x04 8 || h.cfgBit 0x78 (if fatal then 2 else 1))
        then [if fatal then .errFatal else .errNonfatal] else []
    ((FetchResult.slots d).ok = true → may = true → 1 ≤ d.length → d.length ≤ s.fetchRoom n r.val →
      exec (.descriptorFetch p r (.slots d)) s = .next (s.setRing n r.val { g with
        fetched := g.fetched ++ numbered g.fetchAt d, fetchAt := (g.fetchAt + d.length) % s.ringN n r.val })) ∧
    (∀ how, may = true → how = .timeout → h.cfgBit 0x98 4 = true →
      exec (.descriptorFetch p r (.error how)) s = .next s) ∧
    (∀ how, may = true → how ≠ .timeout ∨ h.cfgBit 0x98 4 = false →
      ∃ t e, exec (.descriptorFetch p r (.error how)) s = .next t ∧
        t = { s with csr := t.csr, ports := t.ports, txns := t.txns, draw := t.draw } ∧ t.port (1 - n) = s.port (1 - n) ∧
        t.reg (Reg.HPx_RING_STAT n r.val) = 0x80000001 ∧ (t.ring n r.val).fetched = [] ∧
        t.rb (Reg.HPx_IRQ_STAT n) 4 = true ∧ (t.port n).out = h.out ++ e ++ s.vectorOut n 4 ∧
        (t.port n).pendVec = h.pendVec ||| s.vectorHeld n 4 ∧
        (how = .unsupported → e = [] ∧ (t.port n).cfgBit 0x04 29 = true ∧ (t.port n).aer = h.aer) ∧
        (how = .abort → e = [] ∧ (t.port n).cfgBit 0x04 28 = true ∧ (t.port n).aer = h.aer) ∧
        (how = .poisoned → (t.port n).cfgBit 0x04 31 = true ∧
          (bit (h.aerWord 0x10C) 12 = false → (t.port n).cfgBit 0x78 16 = true ∧ bit ((t.port n).aerWord 0x110) 13 = true ∧
            (bit (h.aerWord 0x114) 13 = true → e = []) ∧
            (bit (h.aerWord 0x114) 13 = false → bit ((t.port n).aerWord 0x104) 12 = true ∧
              e = if h.cfgBit 0x78 0 then [.errCor] else [])) ∧
          (bit (h.aerWord 0x10C) 12 = true → fails (t.port n) 12 e)) ∧
        (how = .timeout → fails (t.port n) 14 e)) ∧
    ((FetchResult.slots d).ok = true → may = false ∨ d.length = 0 ∨ s.fetchRoom n r.val < d.length →
      exec (.descriptorFetch p r (.slots d)) s = .next s) ∧
    (∀ c rest, g.done = c :: rest → s.portSends n = true → 0 < s.cplFree n r.val →
      let tail := s.rf (Reg.HPx_CPL_TAIL n r.val) 11 0
      let next := (tail + 1) % s.ringN n r.val
      ∃ t, exec (.completionWrite p r) s = .next t ∧ t = { s with csr := t.csr, ports := t.ports } ∧
        (t.ring n r.val).done = rest ∧ t.reg (Reg.HPx_CPL_TAIL n r.val) = BitVec.ofNat 32 next ∧
        (t.port n).out = (s.port n).out ++ [.write ((s.reg64 (Reg.HPx_CPL_BASE n r.val)).toNat + 64 * tail) c,
          .write (s.reg64 (Reg.HPx_CPL_SHADOW n r.val)).toNat (toLE next 8)] ++ s.vectorOut n r.val ∧
        (t.port n).pendVec = h.pendVec ||| s.vectorHeld n r.val ∧ t.port (1 - n) = s.port (1 - n) ∧
        t.rb (Reg.HPx_IRQ_STAT n) r.val = true) ∧
    (g.done = [] ∨ s.portSends n = false ∨ s.cplFree n r.val = 0 → exec (.completionWrite p r) s = .next s)

/-- The check of a descriptor before it is executed, whichever of the nine commands it carries (R514, R523 to R525): a
CRC mismatch completes with status CRC and stops the ring with cause 0x11; the alive value before the expected one
completes with REPEAT; any other with SKIP, and the ring stops with cause 0x12; a COUNT out of range or a reserved
byte that is not zero completes with BADCMD. A ring that does not execute commands, or whose oldest slot carries
another CODE, is left as it is. (The model's choices in it: log entries 1 and 21.) -/
def Obligations.RingDescriptorChecked : Prop :=
  ∀ (p : Port) (r : Fin 4) (slot : Nat) (d : List Byte) (rest : List (Nat × List Byte)) (s : State),
    let n := Port.ix p
    let g := s.ring n r.val
    let e := g.alive.toNat
    let k := countOf d
    ∀ c ∈ [(0x00, Instr.commandNop p r, badCmd d 0 0 0), (0x01, .events p r, badCmd d 1 3 (16 * k)),
        (0x02, .umps p r, badCmd d 1 10 (8 + 4 * k)), (0x10, .write32 p r, badCmd d 1 6 (8 * k)),
        (0x20, .txnStage p r, badCmd d 1 6 (8 * k)), (0x21, .txnCommit p r, badCmd d 0 0 8),
        (0x22, .txnAbort p r, badCmd d 0 0 0), (0x30, .progLoad p r, badCmd d 0 0 8 || decide (leField d 10 2 ≠ 0)),
        (0x31, .progRemove p r, badCmd d 0 0 2)],
      (g.fetched = (slot, d) :: rest → s.ringTakes n r.val = true → codeOf d = c.1 →
        leField d 60 4 ≠ (crc32c (d.take 60)).toNat →
        ∃ u, exec c.2.1 s = .next u ∧ (u.ring n r.val).fetched = [] ∧
          (u.ring n r.val).done = g.done ++ [completionBytes d slot 0x80 0 (crc32c (d.take 60)).toNat] ∧
          u.reg (Reg.HPx_RING_STAT n r.val) = 0x80000011 ∧ u.rb (Reg.HPx_IRQ_STAT n) 4 = true) ∧
      (s.ringHolds n r.val slot d rest = true → codeOf d = c.1 → leField d 0 2 = e → c.2.2 = true →
        exec c.2.1 s = .next ((s.ringTaken n r.val slot rest (g.alive + 1)).complete n r.val d slot 2 0 0)) ∧
      (s.ringHolds n r.val slot d rest = true → codeOf d = c.1 → leField d 0 2 = (e + 65535) % 65536 →
        ∃ u, exec c.2.1 s = .next u ∧ u = { s with csr := u.csr, ports := u.ports } ∧
          (u.ring n r.val).fetched = rest ∧ (u.ring n r.val).alive = g.alive ∧
          (u.ring n r.val).done = g.done ++ [completionBytes d slot 1 0 0]) ∧
      (s.ringHolds n r.val slot d rest = true → codeOf d = c.1 → leField d 0 2 ≠ (e + 65535) % 65536 →
        leField d 0 2 ≠ e →
        ∃ u, exec c.2.1 s = .next u ∧ (u.ring n r.val).fetched = [] ∧
          (u.ring n r.val).done = g.done ++ [completionBytes d slot 0x81 0 e] ∧
          u.reg (Reg.HPx_RING_STAT n r.val) = 0x80000012 ∧ u.rb (Reg.HPx_IRQ_STAT n) 4 = true) ∧
      (g.fetched = [] ∨ s.ringTakes n r.val = false → exec c.2.1 s = .next s) ∧
      (g.fetched = (slot, d) :: rest → codeOf d ∈ codes → codeOf d ≠ c.1 → exec c.2.1 s = .next s)

/-- What a command of a ring does when its descriptor has passed the check, with its completion (R516, R518, R519,
R521): NOP nothing, EVENTS and UMPS their events in order once there is room for all, and an undefined CODE or a
reserved byte or COUNT out of place is BADCMD without effect. (The model's choices in it: log entries 22 and 34.)

The entry of an event (R59, R60, R63 to R65, R67 to R70, R72, R86, R94, R674), from whatever source: it is judged by its
format, its part map entry, its owner, its time base and its distance, in this order, and what fails is counted by the first
check that it fails; what passes is added to the heap with its stamp, its source and the next arrival number. -/
def Obligations.RingEventCommands : Prop :=
  (∀ (src time : Nat) (item : Item) (c : Nat) (s : State),
    let t := s.enterItem src time item
    let u := s.evtDiscard c
    let own := fun p => s.rf (Reg.VAL_PART_OWNER p) 31 30
    let agent := if src < 4 then 1 else if src < 8 then 2 else 3
    let base := s.rf (Reg.EVT_SRC_MODE src) 2 1
    let delay := s.rf (Reg.EVT_SRC src) 15 0
    let ownerOk := ∀ p, item.part = some p → own p ≠ 0 ∧ (agent = 3 ∨ own p = agent)
    let timeOk := base = 1 → s.rf (Reg.EVT_HMAP_CTRL (src / 4)) 2 1 ≠ 0 ∧ s.rb (Reg.EVT_HMAP_STAT (src / 4)) 2 = true
    let stamp := if time = 0xFFFFFFFFFFFFFFFF then none
      else some (if base = 0 then time else if base = 1 then s.hostTicks (src / 4) time delay else s.evtNow + delay)
    (u = { s with csr := u.csr, ports := u.ports } ∧ u.rb Reg.EVT_STAT 2 = true ∧
      (u.reg (Reg.EVT_CNT c)).toNat = min ((s.reg (Reg.EVT_CNT c)).toNat + 1) 0xFFFFFFFF) ∧
    (∀ p, item.part = some p → own p = 0 → t = s.evtDiscard 2) ∧
    (∀ p, item.part = some p → own p ≠ 0 → agent ≠ 3 → own p ≠ agent → t = s.evtDiscard 3) ∧
    (ownerOk → ¬ timeOk → t = s.evtDiscard 8) ∧
    (ownerOk → timeOk → (∃ x, stamp = some x ∧ s.evtNow + 2 ^ 31 < x) → t = s.evtDiscard 6) ∧
    (ownerOk → timeOk → (∀ x, stamp = some x → x ≤ s.evtNow + 2 ^ 31) →
      t = { s with csr := t.csr, ports := t.ports, heapSeq := s.heapSeq + 1
                   heap := s.heap ++ [{ stamp := stamp, src := src, seq := s.heapSeq, item := item }] } ∧
      (∀ i, t.reg (Reg.EVT_CNT i) = s.reg (Reg.EVT_CNT i)))) ∧
  (∀ (src : Nat) (time : BitVec 64) (part : BitVec 10) (type : BitVec 6) (h : BitVec 16) (v : Word) (s : State),
    let t := s.takeNative src (time ++ part ++ type ++ h ++ v)
    let fine := (type = 0 ∧ h = 0 ∧ v = 0) ∨ type = 1 ∨ (type = 2 ∧ fld v 31 16 = 0) ∨ (type = 3 ∧ v = 0) ∨
      (4 ≤ type.toNat ∧ type.toNat ≤ 7) ∨ (type = 8 ∧ fld v 31 2 = 0) ∨
      (type = 0x10 ∧ h.toNat < 0xC000 ∧ (h.toNat < 0x4000 → h.toNat < 128)) ∨
      ((type = 0x11 ∨ type = 0x12) ∧ h = 0) ∨ (type = 0x13 ∧ h = 0 ∧ fld v 30 22 = 0) ∨
      ((type = 0x14 ∨ type = 0x15) ∧ h = 0 ∧ v = 0) ∨ type = 0x20
    (¬ fine → t = s.evtDiscard 5) ∧ (fine → type = 0 → t = s) ∧
    (fine → type ≠ 0 → t = s.enterItem src time.toNat (.native type part h v))) ∧
  (∀ (src time : Nat) (w0 w1 : Word) (s : State),
    let t := s.takeUmp src time w0 w1
    let mt := fld w0 31 28
    let st := fld w0 23 20
    let d1 := fld w0 14 8
    let d2 := fld w0 6 0
    let n := fun (x : Nat) => BitVec.ofNat 32 x
    let h := BitVec.ofNat 16 d1
    let m := s.reg (Reg.EVT_PARTMAP (fld w0 27 24 * 16 + fld w0 19 16))
    let agent := if src < 4 then 1 else if src < 8 then 2 else 3
    let gives := fun (type : BitVec 6) (h : BitVec 16) (v : Word) =>
      t = if bit m 16 = true ∧ fld m 31 30 = agent then s.enterItem src time (.native type (m.extractLsb' 0 10) h v)
        else s.evtDiscard 1
    let control := fun (v : Word) => (d1 = 120 → gives 0x15 0 0) ∧ (123 ≤ d1 → gives 0x14 0 0) ∧
      (d1 ≠ 120 → d1 < 123 → gives 0x10 h v)
    (mt = 0 → t = s) ∧ (mt = 1 → t = s.enterItem src time (.ump 1 (w0.extractLsb' 24 4) w0 0)) ∧
    (mt = 3 → t = s.enterItem src time (.ump 3 (w0.extractLsb' 24 4) w0 w1)) ∧ (5 ≤ mt → t = s.evtDiscard 4) ∧
    (mt = 2 →
      (st < 8 ∨ st = 15 → t = s.evtDiscard 4) ∧ (st = 8 → gives 2 h (n (upscale d2 7 16))) ∧
      (st = 9 → d2 = 0 → gives 2 h 0x8000) ∧ (st = 9 → d2 ≠ 0 → gives 1 h (n (d1 * 2 ^ 25 + upscale d2 7 16))) ∧
      (st = 10 → gives 4 h (n (upscale d2 7 32))) ∧ (st = 11 → control (n (upscale d2 7 32))) ∧
      (st = 12 → gives 0x13 0 (n d1)) ∧ (st = 13 → gives 0x11 0 (n (upscale d1 7 32))) ∧
      (st = 14 → gives 0x12 0 (n (upscale (d2 * 128 + d1) 14 32)))) ∧
    (mt = 4 →
      (st = 4 ∨ st = 5 ∨ st = 7 → t = s.evtDiscard 4) ∧
      (st = 0 → gives 6 h (n (fld w0 7 0 * 2 ^ 24 + fld w1 31 8))) ∧
      (st = 1 → gives 7 h (n (fld w0 7 0 * 2 ^ 24 + fld w1 31 8))) ∧
      (st = 2 → gives 0x10 (BitVec.ofNat 16 (0x4000 + d1 * 128 + d2)) w1) ∧
      (st = 3 → gives 0x10 (BitVec.ofNat 16 (0x8000 + d1 * 128 + d2)) w1) ∧
      (st = 6 → gives 5 h w1) ∧ (st = 8 → gives 2 h (n (fld w1 31 16))) ∧
      (st = 9 → gives 1 h (n ((if s.rb Reg.EVT_CTRL 2 = true ∧ fld w0 7 0 = 3 then fld w1 15 0 else d1 * 512) * 2 ^ 16 +
        fld w1 31 16))) ∧
      (st = 10 → gives 4 h w1) ∧ (st = 11 → control w1) ∧
      (st = 12 → bit w0 0 = false → gives 0x13 0 (n (fld w1 30 24))) ∧
      (st = 12 → bit w0 0 = true →
        gives 0x13 0 (n (2 ^ 31 + (fld w1 14 8 * 128 + fld w1 6 0) * 256 + fld w1 30 24))) ∧
      (st = 13 → gives 0x11 0 w1) ∧ (st = 14 → gives 0x12 0 w1) ∧ (st = 15 → gives 8 h (n (fld w0 1 0))))) ∧
  (∀ d, d < 128 → let r := d % 64
    upscale d 7 16 = d * 2 ^ 9 + (if d ≤ 64 then 0 else r * 2 ^ 3 + r / 2 ^ 3) ∧
    upscale d 7 32 = d * 2 ^ 25 +
      (if d ≤ 64 then 0 else r * 2 ^ 19 + r * 2 ^ 13 + r * 2 ^ 7 + r * 2 + r / 2 ^ 5)) ∧
  (upscale 0 14 32 = 0 ∧ upscale 8192 14 32 = 2 ^ 31 ∧ upscale 16383 14 32 = 2 ^ 32 - 1) ∧
  ∀ (p : Port) (r : Fin 4) (slot : Nat) (d : List Byte) (rest : List (Nat × List Byte)) (s : State),
    let n := Port.ix p
    let src := 4 * n + r.val
    let k := countOf d
    let t := s.ringTaken n r.val slot rest ((s.ring n r.val).alive + 1)
    (s.ringRuns n r.val slot 0x00 d rest = true →
      exec (.commandNop p r) s = .next (t.complete n r.val d slot (if k = 0 ∧ restZero d 0 = true then 0 else 2) 0 0)) ∧
    (∀ code, code ∉ codes → s.ringRuns n r.val slot code d rest = true →
      exec (.commandNop p r) s = .next (t.complete n r.val d slot 2 0 0)) ∧
    (s.ringRuns n r.val slot 0x01 d rest = true →
      (1 ≤ k → k ≤ 3 → restZero d (16 * k) = true →
        (t.evtRoom src k = true → exec (.events p r) s = .next
          { (iter (fun i u => u.takeNative src (BitVec.ofNat 128 (leField d (8 + 16 * i) 16))) 0 k t).complete
            n r.val d slot 0 0 0 with pending := s.pending }) ∧
        (t.evtRoom src k = false → exec (.events p r) s = .next s)) ∧
      (k = 0 ∨ 3 < k ∨ restZero d (16 * k) = false →
        exec (.events p r) s = .next (t.complete n r.val d slot 2 0 0))) ∧
    (s.ringRuns n r.val slot 0x02 d rest = true → 1 ≤ k → k ≤ 10 → restZero d (8 + 4 * k) = true →
      (∀ ps, umpPackets k ((List.range k).map (wordAt d 0x10)) = some ps → t.evtRoom src ps.length = true →
        exec (.umps p r) s = .next { (ps.foldl (fun u w => u.takeUmp src (leField d 8 8) w.1 w.2) t).complete
          n r.val d slot 0 0 0 with pending := s.pending }) ∧
      (∀ ps, umpPackets k ((List.range k).map (wordAt d 0x10)) = some ps → t.evtRoom src ps.length = false →
        exec (.umps p r) s = .next s) ∧
      (umpPackets k ((List.range k).map (wordAt d 0x10)) = none →
        exec (.umps p r) s = .next (t.complete n r.val d slot 2 0 0)))

/-- WRITE32 and the transaction commands of a ring (R516, R517, R521, R531, R533): WRITE32 makes its writes in pair order as
the port's direct writes, and TXN_STAGE stages its pairs in order; each completes with OK, or with REFUSED, index and cause of
the first refused item. TXN_COMMIT keeps its completion until its check ends; TXN_ABORT ends a transaction that holds its
write set, and a TXN_COMMIT of another ring that waits for its check completes with TXNSTATE. Out of state each completes with
TXNSTATE and the state. (The model's choices in it: log entry 21.) -/
def Obligations.RingWriteCommands : Prop :=
  ∀ (p : Port) (r : Fin 4) (slot : Nat) (d : List Byte) (rest : List (Nat × List Byte)) (s : State),
    let n := Port.ix p
    let q := Port.req p
    let k := countOf d
    let x := s.txn n
    let t := s.ringTaken n r.val slot rest ((s.ring n r.val).alive + 1)
    let lo (i : Nat) : Nat := leField d (8 + 8 * i) 4
    let hi (i : Nat) : Nat := leField d (12 + 8 * i) 4
    let first (cause : Nat → Nat) (st i c : Nat) : Prop :=
      ((∀ j, j < k → cause j = 0) → st = 0 ∧ i = 0 ∧ c = 0) ∧
      (∀ j, j < k → cause j ≠ 0 → (∀ m, m < j → cause m = 0) → st = 3 ∧ i = j ∧ c = cause j)
    (s.ringRuns n r.val slot 0x10 d rest = true → 1 ≤ k → k ≤ 6 → restZero d (8 * k) = true →
      let made (j : Nat) : State :=
        (List.range j).foldl (fun v i => (v.write32 q (lo i) (BitVec.ofNat 32 (hi i))).2) t
      ((List.range k).any (fun i => tableWord (lo i) && t.stalls q (lo i)) = true → exec (.write32 p r) s = .next s) ∧
      ((List.range k).any (fun i => tableWord (lo i) && t.stalls q (lo i)) = false →
        ∃ st i c, exec (.write32 p r) s =
            .next { (made k).complete n r.val d slot st i c with pending := s.pending } ∧
          first (fun j => ((made j).write32 q (lo j) (BitVec.ofNat 32 (hi j))).1) st i c)) ∧
    (s.ringRuns n r.val slot 0x20 d rest = true → 1 ≤ k → k ≤ 6 → restZero d (8 * k) = true →
      let made (j : Nat) : State :=
        (List.range j).foldl (fun v i => (v.stage n (hi i) (BitVec.ofNat 32 (lo i))).refuse q true (!isCsr (hi i)) (hi i)
          (v.stageCause n (hi i))) t
      (x.st = .opened →
        ∃ st i c, exec (.txnStage p r) s =
            .next { (made k).complete n r.val d slot st i c with pending := s.pending } ∧
          first (fun j => (made j).stageCause n (hi j)) st i c) ∧
      (x.st ≠ .opened → exec (.txnStage p r) s = .next (t.complete n r.val d slot 5 0 x.st.code))) ∧
    (s.ringRuns n r.val slot 0x21 d rest = true → k = 0 → restZero d 8 = true →
      (x.st = .opened →
        exec (.txnCommit p r) s = .next (let u := t.txnCommit n (BitVec.ofNat 64 (leField d 8 8)) (some r.val)
          u.setRing n r.val { u.ring n r.val with busy := some (slot, d) })) ∧
      (x.st ≠ .opened → exec (.txnCommit p r) s = .next (t.complete n r.val d slot 5 0 x.st.code))) ∧
    (s.ringRuns n r.val slot 0x22 d rest = true → k = 0 → restZero d 0 = true →
      (x.st.holds = true → (∀ k, x.ring = some k → (s.ring n k).busy = none) →
        exec (.txnAbort p r) s = .next ((t.setTxn n { x with st := .idle, ring := none }).complete n r.val d slot 0 0 0)) ∧
      (x.st.holds = true → ∀ k slot' d', x.ring = some k → (s.ring n k).busy = some (slot', d') →
        exec (.txnAbort p r) s = .next ((((t.setTxn n { x with st := .idle, ring := none }).setRing n k
          { s.ring n k with busy := none }).complete n k d' slot' 5 0 0).complete n r.val d slot 0 0 0)) ∧
      (x.st.holds = false → exec (.txnAbort p r) s = .next (t.complete n r.val d slot 5 0 x.st.code)))

/-- PROG_LOAD and PROG_REMOVE (R297 to R299, R516, R522): a number above 1,023, or one that is VALID for a load and not
VALID for a removal, is reason 0x03; a load from a bank of another agent is 0x05; a program still named is 0x06 and stays;
a removal that none of them refuses takes the program out of the directory, leaves every other, and ends SLEEP (R614). A load
from an address that waits holds the command, and one from an address that is not a multiple of 8 is BADCMD (log entry
34). -/
def Obligations.RingProgramCommands : Prop :=
  ∀ (p : Port) (r : Fin 4) (slot : Nat) (d : List Byte) (rest : List (Nat × List Byte)) (s : State),
    let n := Port.ix p
    let t := s.ringTaken n r.val slot rest ((s.ring n r.val).alive + 1)
    let g := leField d 8 2
    let a := leField d 12 4
    (s.ringRuns n r.val slot 0x30 d rest = true → countOf d = 0 → restZero d 8 = true → leField d 10 2 = 0 →
      (a % 8 ≠ 0 → exec (.progLoad p r) s = .next (t.complete n r.val d slot 2 0 0)) ∧
      (a % 8 = 0 → t.stalls (Port.req p) a = true → exec (.progLoad p r) s = .next s) ∧
      (a % 8 = 0 → t.stalls (Port.req p) a = false →
        (1023 < g ∨ (s.prog g).isSome = true →
          exec (.progLoad p r) s = .next (t.complete n r.val d slot 0x10 3 0)) ∧
        (g ≤ 1023 → s.prog g = none → 0x4000000 ≤ a ∨ s.wsOwner (bankOf a) ≠ n + 1 →
          exec (.progLoad p r) s = .next (t.complete n r.val d slot 0x10 5 0)) ∧
        (∃ u reason, exec (.progLoad p r) s = .next { u.complete n r.val d slot (if reason = 0 then 0 else 0x10) reason 0
            with pending := s.pending } ∧ (u, reason) = t.progLoad (n + 1) g a))) ∧
    (s.ringRuns n r.val slot 0x31 d rest = true → countOf d = 0 → restZero d 2 = true →
      (s.prog g = none → exec (.progRemove p r) s = .next (t.complete n r.val d slot 0x10 3 0)) ∧
      (s.prog g ≠ none → t.progNamed g = true →
        exec (.progRemove p r) s = .next (t.complete n r.val d slot 0x10 6 0)) ∧
      (s.prog g ≠ none → t.progNamed g = false →
        ∃ u, exec (.progRemove p r) s = .next u ∧ u = { s with csr := u.csr, ports := u.ports, progs := u.progs, cores := u.cores, phase := u.phase } ∧
          u.phase = (if s.phase = .sleep then .run else s.phase) ∧ u.prog g = none ∧ (∀ k, k ≠ g → u.prog k = s.prog k) ∧
          (u.ring n r.val).done = (s.ring n r.val).done ++ [completionBytes d slot 0 0 0]))


/-! ### The host ports -/

/-- Resets of a port (R503, R526): whichever kind, its block of registers takes its Power-on values, its rings are empty and
nothing is held pending, its semaphores are free, its transaction is IDLE, its mapping is invalid, its events leave the heap
and its kept requests and standing accesses are dropped; the sticky error bits stay but under PERST_N; its parts release their
voices at the next control tick. A function-level reset keeps the link up and Link Control and clears its enables; the others
leave the link down, with PERST_N in reset. The other port, every other semaphore and all of memory stay. (The model's choices
in it: log entries 24 and 35.) -/
def Obligations.PortResets : Prop :=
  ∀ (p : Port) (s : State),
    let n := Port.ix p
    let h := s.port n
    ∀ c ∈ [Instr.portFlr p, .portHotReset p, .portLinkDown p, .portPerst p],
      (h.link.up = true ∨ c = .portPerst p) → (h.d3hot = false ∨ c ≠ .portLinkDown p) →
      ∃ t, exec c s = .next t ∧
        t = { s with
          csr := t.csr, ports := t.ports, heap := t.heap, stalled := t.stalled, posted := t.posted, parts := t.parts,
          sems := t.sems, txns := t.txns, hmap := t.hmap, sec := t.sec } ∧
        (∀ a, 0x07010000 + 0x10000 * n ≤ a → a < 0x07020000 + 0x10000 * n → t.reg a = powerOnWord s.variant a) ∧
        (t.port n).rings = [] ∧ (t.port n).pendVec = 0 ∧ t.port (1 - n) = s.port (1 - n) ∧
        (∀ m, s.holder m = some (Port.req p) → t.holder m ≠ some (Port.req p) ∧
          (twf (fun _ => none) s.sems = true → t.holder m = none)) ∧
        (∀ m, s.holder m ≠ some (Port.req p) → t.holder m = s.holder m) ∧
        t.heap = s.heap.filter (fun e => decide (e.src / 4 ≠ n)) ∧
        t.stalled = s.stalled.filter (fun e => decide (e.1 ≠ p)) ∧
        t.posted = (s.posted.map fun l => l.filter fun w => decide (w.req ≠ Port.req p)) ∧
        (t.port n).aer = (if c = .portPerst p then [] else h.aer) ∧
        (t.port n).header = (if c = .portFlr p then h.header.filter fun e => decide (e.1 = 0x80) else []) ∧
        (t.txn n).st = .idle ∧ (∀ k, k ≠ n → t.txn k = s.txn k) ∧ t.rb (Reg.EVT_HMAP_STAT n) 2 = false ∧
        (∀ k, k < 1024 → s.rf (Reg.VAL_PART_OWNER k) 31 30 = n + 1 → (t.part k).relAll = true) ∧
        (c = .portFlr p → (t.port n).link.up = true ∧ (t.port n).busMaster = false ∧ (t.port n).msixEnable = false ∧
          (t.port n).d3hot = false) ∧
        (c = .portHotReset p ∨ c = .portLinkDown p → (t.port n).link = .down) ∧
        (c = .portPerst p → (t.port n).link = .reset ∧ (t.port n).perstHigh = false)

/-- The link and the power state of a port (R475, R500, R501): training after release and PERST_N ends in L0 with the width
and speed agreed (R473); PERST_N rising allows training; D3hot is entered with the link up and left by D0, when the vectors
held pending whose messages may then be sent are sent, lowest first, and held no more (R494, R495); L1 is entered from L0
where it is allowed, its substate enabled and nothing is outstanding or ready to be sent, with PEx_CLKREQ_N high in its
substates (R474), and left for L0. A link that goes down in D3hot resets nothing. Where its condition does not hold a command
does nothing. (The model's choices in it: log entries 1, 20 and 35.) -/
def Obligations.PortLinkStates : Prop :=
  ∀ (p : Port) (w v : BitVec 4) (sub : Fin 3) (s : State),
    let n := Port.ix p
    let h := s.port n
    ((w = 1 ∨ w = 2) → (v = 1 ∨ v = 2 ∨ v = 3 ∨ v = 4) →
      (h.released = true → h.perstHigh = true → h.link.up = false →
        exec (.linkUp p w v) s = .next (s.setPort n { h with link := .l0, clkreqHigh := false, width := w, speed := v })) ∧
      (h.released = false ∨ h.perstHigh = false ∨ h.link.up = true → exec (.linkUp p w v) s = .next s)) ∧
    (exec (.perstNRelease p) s = .next (s.setPort n { h with
      perstHigh := true, link := if h.link = .reset then .down else h.link })) ∧
    (h.link.up = true → exec (.d3hotEntry p) s = .next (s.setPort n { h with d3hot := true })) ∧
    (h.link.up = true → h.d3hot = true → h.pendVec = 0 →
      exec (.d0Return p) s = .next (s.setPort n { h with d3hot := false })) ∧
    (h.link.up = true → h.d3hot = true →
      let freed := (List.range 26).filter fun k => bit h.pendVec k && h.busMaster && h.msixEnable && !h.msixMaskAll &&
        !s.rb (Reg.MSIX_TABLE n (4 * k + 3)) 0
      ∃ t, exec (.d0Return p) s = .next t ∧ t = { s with ports := t.ports } ∧ t.port (1 - n) = s.port (1 - n) ∧
        (t.port n).out = h.out ++ freed.map PortOut.msix ∧
        (∀ k, k < 32 → bit (t.port n).pendVec k = (bit h.pendVec k && !freed.contains k)) ∧
        t.port n = { h with
          d3hot := false, out := (t.port n).out, pendVec := (t.port n).pendVec
          link := if freed = [] then h.link else h.wake.link
          clkreqHigh := if freed = [] then h.clkreqHigh else false }) ∧
    (h.link.up = true → h.d3hot = false → exec (.d0Return p) s = .next s) ∧
    (h.link.up = false → exec (.d3hotEntry p) s = .next s ∧ exec (.d0Return p) s = .next s ∧
      exec (.portLinkDown p) s = .next s ∧ exec (.portFlr p) s = .next s ∧ exec (.portHotReset p) s = .next s) ∧
    (h.link.up = true → h.d3hot = true →
      exec (.portLinkDown p) s = .next (s.setPort n { h with
        link := .down, clkreqHigh := false, width := 0, speed := 0 })) ∧
    (let busy := (s.hm n).dialogue = true ∨ ∃ r, r < 4 ∧ (s.fetching n r = true ∨ s.completing n r = true)
     (h.link = .l0 → s.l1Allowed n = true → h.subEnabled sub.val = true → ¬ busy →
      exec (.l1Entry p sub) s = .next (s.setPort n { h with
        link := if sub.val = 0 then .l1 else if sub.val = 1 then .l11 else .l12, clkreqHigh := decide (sub.val ≠ 0) })) ∧
     (h.link ≠ .l0 ∨ s.l1Allowed n = false ∨ h.subEnabled sub.val = false ∨ busy →
      exec (.l1Entry p sub) s = .next s)) ∧
    (exec (.l1Exit p) s = .next (s.setPort n { h with
      link := if h.link = .l1 ∨ h.link = .l11 ∨ h.link = .l12 then .l0 else h.link, clkreqHigh := false }))

/-- CONFIGURATION_REQUEST completes in every state, for every item of the configuration space (R477, R478, R501). With the
link down none arrives and nothing changes. A read returns the setting and changes nothing but the link, which leaves L1; a
write stores its own setting and leaves the port's others, every register word and the other port as they were, and each
vector held pending whose message may be sent with the setting as written goes out, lowest first, and is held no more (R495);
an unsupported size is not taken; PowerState moves the port between D0 and D3hot, and Initiate Function Level Reset resets
it (R476). (The model's choices in it: log entry 35.) -/
def Obligations.ConfigurationRequests : Prop :=
  ∀ (p : Port) (item : CfgItem) (w : Option Word) (s : State), (Instr.configurationRequest p item w).wf = true →
    let n := Port.ix p
    let h := s.port n
    ∃ t, exec (.configurationRequest p item w) s = .next t ∧
      (h.link.up = false → t = s) ∧
      (h.link.up = true → w = none →
        t = { s.setPort n h.wake with resp := { value := ((s.setPort n h.wake).cfgRead n item).setWidth 64 } }) ∧
      (∀ v, h.link.up = true → w = some v →
        let y := t.port n
        let base : HostPort := { h.wake with out := y.out, pendVec := y.pendVec }
        let freed := (List.range 26).filter fun k => bit h.pendVec k && !y.d3hot && y.busMaster && y.msixEnable &&
          !y.msixMaskAll && !s.rb (Reg.MSIX_TABLE n (4 * k + 3)) 0
        let header : Nat → Word → Tbl Word := fun off x => tput 0 h.header off x
        t.port (1 - n) = s.port (1 - n) ∧
        (item = .header 0x78 → bit v 15 = true →
          y.link.up = true ∧ y.rings = [] ∧ y.pendVec = 0 ∧ y.busMaster = false ∧ y.msixEnable = false ∧ y.d3hot = false ∧
            (t.txn n).st = .idle) ∧
        (item ≠ .header 0x78 ∨ bit v 15 = false →
          t = { s with ports := t.ports, resp := {} } ∧
          y.out = h.out ++ freed.map PortOut.msix ∧
          (∀ k, k < 32 → bit y.pendVec k = (bit h.pendVec k && !freed.contains k)) ∧
          (item = .ptmEnable → y = { base with ptmEnable := bit v 0 }) ∧
          (item = .busMasterEnable → y = { base with busMaster := bit v 0 }) ∧
          (item = .aspmL1 → y = { base with aspmL1 := bit v 0 }) ∧
          (item = .l1ss → y = { base with l1ss := v.setWidth 4 }) ∧
          (item = .msixFunctionMask → y = { base with msixMaskAll := bit v 0 }) ∧
          (item = .msixEnable → y = { base with msixEnable := bit v 0 }) ∧
          (item = .maxPayload → y = { base with maxPayload := if v = 128 ∨ v = 256 then v.toNat else h.maxPayload }) ∧
          (item = .maxReadRequest →
            y = { base with maxRead := if v = 128 ∨ v = 256 ∨ v = 512 then v.toNat else h.maxRead }) ∧
          (item = .header 0x04 → y = { base with
            busMaster := bit v 2
            header := header 0x04 ((v &&& headerMask 0x04) ||| (tget 0 h.header 0x04 &&& 0xF9000000 &&& ~~~ v)) }) ∧
          (item = .header 0x10 → y = { base with header := y.header } ∧ t.cfgWord n 0x10 = (v &&& 0xFFE00000) ||| 4) ∧
          (item = .header 0x44 →
            y = { base with d3hot := if fld v 1 0 = 0 then false else if fld v 1 0 = 3 then true else h.d3hot }) ∧
          (item = .header 0x50 → y = { base with msixEnable := bit v 31, msixMaskAll := bit v 30 }) ∧
          (item = .header 0x78 → y = { base with
            header := header 0x78 ((v &&& 0x10F) ||| (tget 0 h.header 0x78 &&& 0xF0000 &&& ~~~ v))
            maxPayload := if fld v 7 5 ≤ 1 then 128 * 2 ^ fld v 7 5 else h.maxPayload
            maxRead := if fld v 14 12 ≤ 2 then 128 * 2 ^ fld v 14 12 else h.maxRead }) ∧
          (item = .header 0x80 → y = { base with header := header 0x80 (v &&& 0xC8), aspmL1 := bit v 1 }) ∧
          (item = .header 0x98 → y = { base with header := y.header } ∧ y.cfgBit 0x98 4 = bit v 4) ∧
          (item = .header 0x104 → y = { base with aer := y.aer } ∧ y.aerWord 0x104 = h.aerWord 0x104 &&& ~~~ v) ∧
          (item = .header 0x110 → y = { base with aer := y.aer } ∧ y.aerWord 0x110 = h.aerWord 0x110 &&& ~~~ v) ∧
          (item = .header 0x1B8 → y = { base with ptmEnable := bit v 0 }) ∧
          (item = .header 0x1C8 → y = { base with l1ss := v.setWidth 4 }) ∧
          (∀ off, item = .header off → off < 0x40 → y = { base with header := y.header, busMaster := y.busMaster }) ∧
          (∀ off, item = .header off → 0x40 ≤ off →
            off ∉ [0x44, 0x50, 0x78, 0x80, 0x98, 0x104, 0x108, 0x10C, 0x110, 0x114, 0x1B8, 0x1C8] → y = base)))

/-- Host time (R81, R82, R84, R85, R87, R498, R499): in PTM mode a dialogue starts after a strobe at which one is due, and
sends a request; a pair with a valid context counts OK and, where no mapping is valid, anchors one at the pair with K_nom.
Where one is valid and the pair's host time stands within 1 ms of what it predicts, the mapping passes through the pair, and
takes the rate measured since the reference pair once that lies a second back; beyond, it is anchored anew, JUMP_BACK or
JUMP_FWD is set and with it the cause of vector 15, whose message goes out or is held (R493 to R495). Events in the heap keep
their stamps (R82). A pair without a valid context, or a time-out, counts FAIL. A change of engine rate makes both mappings
invalid and sets no jump flag (R84). LOAD in MANUAL mode puts the written values in force and makes the mapping valid, and
that mode makes no dialogue and detects no jump (R85); a change of MODE makes it invalid (R87); what either changes beside the
mapping is when its port's media clock candidate began to meet its conditions (R459). (The model's choices in it: log entries
1, 23 and 59.) -/
def Obligations.HostTimeMapping : Prop :=
  ∀ (q : Req) (p : Port) (hns e : Dword) (ok : Bool) (v : Word) (s : State),
    let n := Port.ix p
    let m := s.hm n
    let st := Reg.EVT_HMAP_STAT n
    let ptm := Reg.HPx_PTM_STAT n
    (s.ptmReady n = true → m.due = true →
      ∃ t, exec (.ptmDialogueStart p) s = .next t ∧ t = { s with hmap := t.hmap, ports := t.ports } ∧
        t.hm n = { m with dialogue := true, due := false } ∧ (t.port n).out = (s.port n).out ++ [.ptmRequest]) ∧
    (s.ptmReady n = false ∨ m.due = false → exec (.ptmDialogueStart p) s = .next s) ∧
    (s.rf (Reg.EVT_HMAP_CTRL n) 2 1 = 2 → exec (.ptmDialogueStart p) s = .next s) ∧
    (m.dialogue = false → exec (.ptmPair p hns e ok) s = .next s ∧ exec (.ptmTimeout p) s = .next s) ∧
    (m.dialogue = true → s.rf (Reg.EVT_HMAP_CTRL n) 2 1 ≠ 1 →
      exec (.ptmPair p hns e ok) s = .next (s.setHm n { m with dialogue := false })) ∧
    (m.dialogue = true → s.rf (Reg.EVT_HMAP_CTRL n) 2 1 = 1 →
      exec (.ptmPair p hns e false) s = .next ((s.setHm n { m with dialogue := false }).setRf ptm 31 16
        (min 0xFFFF (s.rf ptm 31 16 + 1)))) ∧
    (m.dialogue = true → s.rf (Reg.EVT_HMAP_CTRL n) 2 1 = 1 → s.rb st 2 = false →
      ∃ t, exec (.ptmPair p hns e true) s = .next t ∧
        t = { s with csr := t.csr, hmap := t.hmap, mck := t.mck } ∧
        t.rf ptm 15 0 = min 0xFFFF (s.rf ptm 15 0 + 1) ∧ t.rb st 2 = true ∧ (t.hm n).dialogue = false ∧
        t.reg64 (Reg.EVT_HMAP_H0 n) = hns ∧ t.reg64 (Reg.EVT_HMAP_E0 n) = e ∧
        t.reg64 (Reg.EVT_HMAP_K n) = BitVec.ofNat 64 s.kNom) ∧
    (m.dialogue = true → s.rf (Reg.EVT_HMAP_CTRL n) 2 1 = 1 → s.rb st 2 = true →
      let k := (s.reg64 (Reg.EVT_HMAP_K n)).toNat
      let pred : Int := (s.reg64 (Reg.EVT_HMAP_H0 n)).toNat +
        (((e.toNat : Int) - (s.reg64 (Reg.EVT_HMAP_E0 n)).toNat) * 2 ^ 40 + (k / 2 : Nat)) / k
      let j := (hns - BitVec.ofInt 64 pred).toInt
      let dh := (hns - m.href).toInt
      ∃ t, exec (.ptmPair p hns e true) s = .next t ∧
        t = { s with csr := t.csr, ports := t.ports, hmap := t.hmap, mck := { s.mck with cands := t.mck.cands } } ∧
        t.heap = s.heap ∧ t.rf ptm 15 0 = min 0xFFFF (s.rf ptm 15 0 + 1) ∧ t.rb st 2 = true ∧
        t.reg64 (Reg.EVT_HMAP_H0 n) = hns ∧ t.reg64 (Reg.EVT_HMAP_E0 n) = e ∧ t.hm (1 - n) = s.hm (1 - n) ∧
        (j ≤ -1000000 ∨ 1000000 ≤ j → t.reg64 (Reg.EVT_HMAP_K n) = BitVec.ofNat 64 s.kNom ∧
          t.hm n = { m with dialogue := false, href := hns, eref := e } ∧
          t.rb st 0 = (s.rb st 0 || decide (j ≤ -1000000)) ∧ t.rb st 1 = (s.rb st 1 || decide (1000000 ≤ j)) ∧
          t.rb (Reg.HPx_IRQ_STAT n) 15 = true ∧ (t.port n).out = (s.port n).out ++ s.vectorOut n 15 ∧
          (t.port n).pendVec = (s.port n).pendVec ||| s.vectorHeld n 15) ∧
        (-1000000 < j → j < 1000000 → t.reg st = s.reg st ∧ t.ports = s.ports ∧
          (dh < 1000000000 → t.reg64 (Reg.EVT_HMAP_K n) = s.reg64 (Reg.EVT_HMAP_K n) ∧
            t.hm n = { m with dialogue := false }) ∧
          (1000000000 ≤ dh → t.reg64 (Reg.EVT_HMAP_K n) =
              BitVec.ofInt 64 ((2 * (((e.toNat : Int) - m.eref.toNat) * 2 ^ 40) + dh) / (2 * dh)) ∧
            t.hm n = { m with dialogue := false, href := hns, eref := e }))) ∧
    (∀ i, i < 2 → s.rateChanged.rb (Reg.EVT_HMAP_STAT i) 2 = false ∧
      s.rateChanged.rb (Reg.EVT_HMAP_STAT i) 0 = s.rb (Reg.EVT_HMAP_STAT i) 0 ∧
      s.rateChanged.rb (Reg.EVT_HMAP_STAT i) 1 = s.rb (Reg.EVT_HMAP_STAT i) 1) ∧
    (m.dialogue = true →
      exec (.ptmTimeout p) s = .next ((s.setHm n { m with dialogue := false }).setRf ptm 31 16
        (min 0xFFFF (s.rf ptm 31 16 + 1)))) ∧
    (∀ c ∈ [(Instr.hmapLoad q p v, v ||| 1), (.hmapModeChange q p v, v)],
      s.takes q (Reg.EVT_HMAP_CTRL n) c.2 = true →
      ∃ t, exec c.1 s = .next t ∧ t = { s with csr := t.csr, mck := { s.mck with cands := t.mck.cands }, resp := {} } ∧
        t.reg (Reg.EVT_HMAP_CTRL n) = setFld c.2 0 0 0 ∧
        (bit c.2 0 = true → fld c.2 2 1 = 2 → t.rb st 2 = true ∧ t.reg64 (Reg.EVT_HMAP_H0 n) = m.wH0 ∧
          t.reg64 (Reg.EVT_HMAP_E0 n) = m.wE0 ∧ t.reg64 (Reg.EVT_HMAP_K n) = m.wK) ∧
        (bit c.2 0 = false ∨ fld c.2 2 1 ≠ 2 → t.reg64 (Reg.EVT_HMAP_H0 n) = s.reg64 (Reg.EVT_HMAP_H0 n) ∧
          (fld c.2 2 1 ≠ s.rf (Reg.EVT_HMAP_CTRL n) 2 1 → t.rb st 2 = false) ∧
          (fld c.2 2 1 = s.rf (Reg.EVT_HMAP_CTRL n) 2 1 → t.reg st = s.reg st)))

/-! ### Wave Store -/

/-- An accepted write of WS_OWN[b] (R341 to R347, R361). With a cluster on either side, or a new LBANK of a bank that
stays with its cluster, the handover is pending and the old owner keeps the bank; between hosts and SE it takes effect
at once and the bank drains; to none it clears; a claim or a write that keeps the owner stores OWNER, LBANK and FEED,
and FROM is zero under any owner but a cluster. A WRITE of non-volatile memory notes that its source has a new owner (R636).
Every other register and all of memory stay. The ends of a drain (R344), of a bank's clear (R347, R357, R360) and of the clear
after OFF (R356), each while it is in progress, where no access waits for it: the words that fetches of the Stage Engines
have still to read from the bank are read and counted first (R344, R362, R363), BUSY or WAKECLR returns to 0 and the cleared
bytes read zero, SEALED with them; no other byte and no other register changes. Where none is in progress nothing changes.
(The model's choices in it: log entries 1, 4, 8 and 43.) -/
def Obligations.WaveBanks : Prop :=
  (∀ (q : Req) (b : Fin 16) (w : Word) (s : State), s.takes q (Reg.WS_OWN b.val) w = true →
      let old := s.wsOwner b.val
      let new := fld w 31 28
      ∃ t, exec (.wsOwnWrite q b w) s = .next t ∧
        t = { s with csr := t.csr, wsPend := t.wsPend, wsBusy := t.wsBusy, stgs := t.stgs, nvm := t.nvm, resp := {} } ∧
        (s.nvm.op = none → t.nvm = s.nvm) ∧
        (∀ o, s.nvm.op = some o → t.nvm = { s.nvm with op := some { o with moved := o.moved ||
          (decide (new ≠ old) && decide (old < 8) && decide (new < 8) && decide (o.source = some b.val)) } }) ∧
        (∀ e, t.stg e = { s.stg e with moved := (t.stg e).moved }) ∧
        (∀ a, a ≠ Reg.WS_OWN b.val → t.reg a = s.reg a) ∧
        (new ≠ old → 8 ≤ old ∨ 8 ≤ new →
          t.reg (Reg.WS_OWN b.val) = setFld (s.reg (Reg.WS_OWN b.val)) 17 17 1 ∧ t.wsOwner b.val = old ∧
            t.wsPending b.val = true ∧ tget none t.wsPend b.val = some w ∧ t.wsBusy = s.wsBusy) ∧
        (new = old → 8 ≤ old → fld w 23 20 ≠ s.wsLbank b.val →
          t.wsOwner b.val = old ∧ t.wsLbank b.val = s.wsLbank b.val ∧ t.wsFrom b.val = s.wsFrom b.val ∧
            t.wsFeed b.val = bit w 19 ∧ t.wsPending b.val = true ∧ tget none t.wsPend b.val = some w ∧
            t.wsBusy = s.wsBusy) ∧
        (new = old → old < 8 ∨ fld w 23 20 = s.wsLbank b.val →
          t.wsOwner b.val = old ∧ t.wsLbank b.val = fld w 23 20 ∧ t.wsFeed b.val = bit w 19 ∧
            t.wsFrom b.val = (if old < 8 then 0 else s.wsFrom b.val) ∧ t.wsPend = s.wsPend ∧ t.wsBusy = s.wsBusy) ∧
        (new ≠ old → old < 8 → new < 8 →
          t.wsOwner b.val = new ∧ t.wsLbank b.val = fld w 23 20 ∧ t.wsFeed b.val = bit w 19 ∧ t.wsFrom b.val = 0 ∧
            t.wsPend = s.wsPend ∧
            (new = 0 → t.wsBusyBit b.val = true ∧ tget 0 t.wsBusy b.val = 2) ∧
            (new ≠ 0 → old ≠ 0 → t.wsBusyBit b.val = true ∧ tget 0 t.wsBusy b.val = 1) ∧
            (old = 0 → t.wsBusyBit b.val = s.wsBusyBit b.val ∧ t.wsBusy = s.wsBusy))) ∧
  (∀ (b : Fin 16) (s : State), s.stalled = [] →
      let settled (t : State) : Prop :=
        (∀ e, e < 2 → t.stg e = { s.stg e with tr := (s.stg e).tr.map fun r => { r with
          fetches := r.fetches.map fun f => if f.reads b.val then (s.finishFetch f).1 else f } }) ∧
        (∀ e, 2 ≤ e → t.stg e = s.stg e) ∧
        (∀ a, a ≠ Reg.WS_OWN b.val → a ≠ Reg.WS_CNT_ACC b.val → a ≠ Reg.WS_CNT_COLL b.val → a ≠ Reg.WS_WAIT b.val →
          t.reg a = s.reg a) ∧
        ((∀ e r, e < 2 → (s.stg e).tr = some r → ∀ f ∈ r.fetches, f.reads b.val = false) →
          t.stgs = s.stgs ∧ t.wsAcc = s.wsAcc ∧ t.draw = s.draw ∧ ∀ a, a ≠ Reg.WS_OWN b.val → t.reg a = s.reg a)
      (tget 0 s.wsBusy b.val = 1 →
        ∃ t, exec (.wsDrainDone b) s = .next t ∧ t = { s with
            csr := t.csr, wsBusy := t.wsBusy, stgs := t.stgs, wsAcc := t.wsAcc, draw := t.draw } ∧
          t.reg (Reg.WS_OWN b.val) = setFld (s.reg (Reg.WS_OWN b.val)) 16 16 0 ∧ tget 0 t.wsBusy b.val = 0 ∧ settled t) ∧
      (tget 0 s.wsBusy b.val ≠ 1 → exec (.wsDrainDone b) s = .next s) ∧
      (tget 0 s.wsBusy b.val = 2 →
        ∃ t, exec (.bankClearDone b) s = .next t ∧ t = { s with
            csr := t.csr, wsBusy := t.wsBusy, mem := t.mem, stgs := t.stgs, wsAcc := t.wsAcc, draw := t.draw } ∧
          t.reg (Reg.WS_OWN b.val) = setFld (setFld (s.reg (Reg.WS_OWN b.val)) 16 16 0) 18 18 0 ∧
          tget 0 t.wsBusy b.val = 0 ∧ settled t ∧
          ∀ a, t.byte a = if b.val * 0x400000 ≤ a ∧ a < (b.val + 1) * 0x400000 then 0 else s.byte a) ∧
      (tget 0 s.wsBusy b.val ≠ 2 → exec (.bankClearDone b) s = .next s) ∧
      (s.rb Reg.WS_STAT 16 = true →
        ∃ t, exec .wakeClearDone s = .next t ∧ t = { s with csr := t.csr, mem := t.mem } ∧
          t.rb Reg.WS_STAT 16 = false ∧ (∀ a, a ≠ Reg.WS_STAT → t.reg a = s.reg a) ∧
          ∀ a, t.byte a = if a < 0x05C00000 then 0 else s.byte a) ∧
      (s.rb Reg.WS_STAT 16 = false → exec .wakeClearDone s = .next s))

/-! ### Stage Engines -/

/-- Writes of STG_CTRL[e] that carry one trigger (R405, R408, R411 to R413, R420). START begins a STOPPED program at ENTRY
with every register of R144 zero, all eight windows and the trap registers among them, but P0, B0, G1 = e and G2 = 1; STOP
stops a running one once the Wave Store accesses it has issued have completed and been counted (R411), frees its semaphores,
empties its send buffer, drops LOCK, and sets the stop flag unless the engine itself wrote it; LOAD clears the engine's memory
and starts the copy, unless the engine is out of service (R420); LOCK is stored; RESUME starts the recovery of a held
HALTFAULT. START of a program that is not STOPPED, STOP of one that does not run, and RESUME elsewhere only store the word.
(The model's choices in it: log entries 29 and 30.) -/
def Obligations.StageControls : Prop :=
  ∀ (q : Req) (e : Fin 2) (v : Word) (s : State),
    let x := s.stg e.val
    let own := seReq e.val
    let stored : Word → Word := fun w => setFld (w &&& 0x60) 7 7 (if q = own then fld w 7 7 else s.rf (Reg.STG_CTRL e.val) 7 7)
    let only : Word → State := fun w => { s.setReg (Reg.STG_CTRL e.val) (stored w) with resp := {} }
    (∀ w, w = v ||| 2 → w &&& 0x1C = 0 → s.takes q (Reg.STG_CTRL e.val) w = true →
      (x.st = .stopped → ∃ r, exec (.stgStart q e v) s =
          .next ((only w).setStg e.val { x with st := .run, tr := some r, stall := none, heldArch := none }) ∧
        r.arch.pc = x.entry ∧ r.arch.tm = false ∧ r.arch.loops = [] ∧ r.arch.acc = [] ∧ r.pend = .none ∧
        r.fetches = [] ∧ r.ended = none ∧ r.arch.sr = 0 ∧ r.arch.wp = 0 ∧ r.arch.sd = 0 ∧ r.arch.rrb = 0 ∧
        r.arch.tpc = 0 ∧ r.arch.tnpc = 0 ∧ r.arch.tsr = 0 ∧ r.arch.twp = 0 ∧ r.arch.tcause = 0 ∧ r.arch.taddr = 0 ∧
        (∀ k, k < 4 → tget 0 r.arch.ptr (32 + k) = 0) ∧
        (∀ n, n < 144 → r.arch.gp n = if n = 1 then BitVec.ofNat 32 e.val else if n = 2 then 1 else 0) ∧
        (∀ k n, k < 4 → n < 8 → r.arch.px k n =
          if n = 0 ∧ k < 2 then BitVec.ofNat 32 (0x0600A000 + 0x40000 * e.val) else 0)) ∧
      (x.st ≠ .stopped → exec (.stgStart q e v) s = .next (only w))) ∧
    (∀ w, w = v ||| 4 → w &&& 0x1A = 0 → s.takes q (Reg.STG_CTRL e.val) w = true →
      (x.st.running = true → ∃ t, exec (.stgStop q e v) s = .next t ∧
        t = { s with
          csr := t.csr, ports := t.ports, sems := t.sems, stgs := t.stgs, wsAcc := t.wsAcc, draw := t.draw, resp := {} } ∧
        (∀ r, x.tr = some r → (∀ f ∈ r.fetches, f.second = none) → t.wsAcc = s.wsAcc ∧ t.draw = s.draw) ∧
        (∀ r f y, x.tr = some r → r.fetches = [f] → f.second = some y →
          tget 0 t.wsAcc (bankOf y.addr) = (tget 0 s.wsAcc (bankOf y.addr) + 1) % 1024) ∧
        t.stg e.val = { x with st := .stopped, tr := none, stall := none, sendBusy := false, blockSeen := false } ∧
        (∀ f, f ≠ e.val → t.stg f = s.stg f) ∧
        (∀ n, t.holder n ≠ some own ∧ (s.holder n ≠ some own → t.holder n = s.holder n)) ∧
        t.reg (Reg.STG_CTRL e.val) = setFld (stored w) 7 7 0 ∧ (∀ k, k < 6 → t.reg (Reg.STG_SENDBUF e.val k) = 0) ∧
        t.reg (Reg.STG_STAT e.val) = (if q = own then s.reg (Reg.STG_STAT e.val)
          else s.reg (Reg.STG_STAT e.val) ||| 4)) ∧
      (x.st.running = false → exec (.stgStop q e v) s = .next (only w))) ∧
    (∀ w, w = v ||| 8 → w &&& 0x16 = 0 → s.takes q (Reg.STG_CTRL e.val) w = true →
      (x.oos = true → exec (.stgLoad q e v) s = .next (only w)) ∧
      (x.oos = false → ∃ t, exec (.stgLoad q e v) s = .next t ∧ t = { s with csr := t.csr, mem := t.mem, stgs := t.stgs, resp := {} } ∧
        t.stg e.val = { x with st := .loading, load := some (s.reg (Reg.STG_LOAD_SRC e.val), q, none), moved := [],
                               kernel := false, heldArch := none } ∧
        (∀ f, f ≠ e.val → t.stg f = s.stg f) ∧ t.reg (Reg.STG_LOAD_ST e.val) = 1 ∧
        t.reg (Reg.STG_CTRL e.val) = stored w ∧
        (∀ a, a ≠ Reg.STG_LOAD_ST e.val → a ≠ Reg.STG_CTRL e.val → t.reg a = s.reg a) ∧
        ∀ a, t.byte a = if seBase e.val ≤ a ∧ a < seBase e.val + 0x40000 then 0 else s.byte a)) ∧
    (∀ w, w = v ||| 0x80 → w &&& 0x1E = 0 → s.takes q (Reg.STG_CTRL e.val) w = true →
      q = own ∧ exec (.stgLock q e v) s = .next (only w) ∧ (only w).rb (Reg.STG_CTRL e.val) 7 = true) ∧
    (∀ w, w = v ||| 0x10 → w &&& 0x0E = 0 → s.takes q (Reg.STG_CTRL e.val) w = true →
      exec (.stgResume q e v) s = .next
        (if x.st = .haltfault ∧ s.rb (Reg.STG_CTRL e.val) 5 = true then
          (only w).setStg e.val { x with kernel := true, heldArch := none }
        else only w))

/-- What a Stage Engine's partners and its own program write (R414, R415, R417, R421): a requester's ring sets its
doorbell bit and the engine's write clears bits; SENDGO is busy and keeps the buffer where the heap has no room, else
the event is taken as source 10 + e and RESULT is 0; SVC_POP removes the oldest entry of the service queue. (The
model's choices in it: log entry 29.) -/
def Obligations.StageMessages : Prop :=
  ∀ (q : Req) (e : Fin 2) (w : Word) (s : State),
    let x := s.stg e.val
    let b := Reg.STG_SENDBUF e.val
    (s.takes q (Reg.STG_DOORBELL e.val) w = true →
      exec (.stgDoorbell q e w) s = .next { s.setReg (Reg.STG_DOORBELL e.val)
        (if q = seReq e.val then s.reg (Reg.STG_DOORBELL e.val) &&& ~~~ w
         else s.reg (Reg.STG_DOORBELL e.val) ||| (w &&& 7)) with resp := {} }) ∧
    (s.takes q (Reg.STG_SVC_POP e.val) 1 = true →
      exec (.stgSvcPop q e) s = .next { s.setStg e.val { x with svcq := x.svcq.drop 1 } with resp := {} }) ∧
    (∀ ump : Bool, s.takes q (Reg.STG_SENDGO e.val) (BitVec.ofNat 32 (b2n ump)) = true →
      (s.evtRoom (10 + e.val) 1 = false → exec (.stgSendgo q e ump) s = .next
        { (s.setReg (Reg.STG_SENDST e.val) 1).setStg e.val { x with sendBusy := true } with resp := {} }) ∧
      (s.evtRoom (10 + e.val) 1 = true →
        let u := (s.setReg (Reg.STG_SENDST e.val) 0).setStg e.val { x with sendBusy := false }
        (ump = false → exec (.stgSendgo q e ump) s = .next
          { u.takeNative (10 + e.val) (s.reg (b 3) ++ s.reg (b 2) ++ s.reg (b 1) ++ s.reg (b 0)) with
            resp := {}, pending := s.pending }) ∧
        (ump = true → exec (.stgSendgo q e ump) s = .next
          { u.takeUmp (10 + e.val) (s.reg (b 1) ++ s.reg (b 0)).toNat (s.reg (b 2)) (s.reg (b 3)) with
            resp := {}, pending := s.pending })))

/-- What a Stage Engine does in its own time while the engines run (R402, R405, R409, R419): a load that verifies
places code and data and stops, or begins where it restarts by itself; one that fails clears the memory again, reports
its code and leaves the engine EMPTY, and an automatic restart that fails sets RSTLIM. A kernel that has passed
reloads from the last source; a wake cause that is enabled resumes a waiting program; an arrived load ends the stall.
(The model's choices in it: log entries 1, 29 and 30.) -/
def Obligations.StageOwnEvents : Prop :=
  ∀ (e : Fin 2) (s : State),
    let x := s.stg e.val
    (s.engineRuns = false → exec (.stgLoadDone e) s = .next s ∧ exec (.stgAutoRestart e) s = .next s ∧
      exec (.stgWakeResume e) s = .next s ∧ exec (.seLoadArrival e) s = .next s) ∧
    (s.engineRuns = true →
      (x.load = none → exec (.stgLoadDone e) s = .next s) ∧
      (∀ src q after code, x.load = some (src, q, after) → s.stgVerify e.val src q = .error code →
        ∃ t, exec (.stgLoadDone e) s = .next t ∧ (t.stg e.val).st = .empty ∧ (t.stg e.val).load = none ∧
          t.reg (Reg.STG_LOAD_ST e.val) = BitVec.ofNat 32 (code * 2 ^ 24) ∧ (∀ f, f ≠ e.val → t.stg f = s.stg f) ∧
          (after = some 2 → t.rb (Reg.STG_STAT e.val) 1 = true) ∧
          ∀ a, t.byte a = if seBase e.val ≤ a ∧ a < seBase e.val + 0x40000 then 0 else s.byte a) ∧
      (∀ src q after image, x.load = some (src, q, after) → s.stgVerify e.val src q = .ok image →
        let len := leField image 2 2
        let code := slice image 0x20 (8 * len)
        let data := slice image (0x20 + 8 * len) (leField image 8 4)
        ∃ t, exec (.stgLoadDone e) s = .next t ∧ (∀ f, f ≠ e.val → t.stg f = s.stg f) ∧
          t.reg (Reg.STG_LOAD_ST e.val) = 0 ∧ (t.stg e.val).load = none ∧ (t.stg e.val).lastSrc = some (src, q) ∧
          (t.stg e.val).len = len ∧ (t.stg e.val).entry = leField image 4 2 ∧ (t.stg e.val).trap = leField image 6 2 ∧
          (after = none ∨ s.ready = false → (t.stg e.val).st = .stopped ∧ (t.stg e.val).tr = none) ∧
          (∀ n, after = some n → s.ready = true → (t.stg e.val).st = .run ∧
            (t.stg e.val).tr.map (·.arch.pc) = some (leField image 4 2) ∧
            (t.stg e.val).tr.map (·.arch.gr 2) = some (BitVec.ofNat 32 n)) ∧
          (∀ i, i < code.length → i < 0x8000 → t.byte (seBase e.val + 0x2000 + i) = code.getD i 0) ∧
          (∀ i, i < data.length → t.byte (seBase e.val + 0xA000 + i) = data.getD i 0)) ∧
      (x.kernel = true → x.oos = false → ∀ src q, x.lastSrc = some (src, q) →
        ∃ t, exec (.stgAutoRestart e) s = .next t ∧ t = { s with csr := t.csr, mem := t.mem, stgs := t.stgs } ∧
          t.stg e.val = { x with st := .loading, load := some (src, q, some 2), moved := [], kernel := false,
                                 restartAt := s.strobes, heldArch := none } ∧
          (∀ f, f ≠ e.val → t.stg f = s.stg f) ∧ t.reg (Reg.STG_LOAD_ST e.val) = 1 ∧
          (∀ a, a ≠ Reg.STG_LOAD_ST e.val → t.reg a = s.reg a) ∧
          ∀ a, t.byte a = if seBase e.val ≤ a ∧ a < seBase e.val + 0x40000 then 0 else s.byte a) ∧
      (x.kernel = false → exec (.stgAutoRestart e) s = .next s) ∧
      (x.st = .wait → s.stgWakeDue e.val = true → exec (.stgWakeResume e) s = .next (s.setStg e.val
        { x with st := if (x.tr.map (·.arch.tm)).getD false then .trap else .run, blockSeen := false })) ∧
      (x.st ≠ .wait ∨ s.stgWakeDue e.val = false → exec (.stgWakeResume e) s = .next s) ∧
      (∀ r l, x.tr = some r → x.stall = some l →
        (r.ended = none ∨ r.fetches ≠ [] → exec (.seLoadArrival e) s = .next (s.setStg e.val
          { x with stall := none, tr := some { r with arch := l.foldl Arch.stallWord r.arch } })) ∧
        (r.ended.isSome = true → r.fetches = [] → ∃ t, exec (.seLoadArrival e) s = .next t ∧
          (t.stg e.val).st = .stopped ∧ (t.stg e.val).tr = none ∧ (t.stg e.val).stall = none ∧
          (∀ f, f ≠ e.val → t.stg f = s.stg f) ∧ t.mem = s.mem)) ∧
      (x.tr = none ∨ x.stall = none → exec (.seLoadArrival e) s = .next s))

/-! ### The Puppeteer -/

/-- A write of PUP_TASK_CFG[t] that sets EN, clears EN or sets RUN (R301, R305, R308, R310). RUN is kept while it is
set and only a P3 entry has it; EN takes effect at the next block boundary, so no task comes or goes with it; where
RUN is 1, the entry's enable is in effect and it has no task, one background task of it joins the list of its Voice
Engine, ready at once (R312). (The model's choices in it: log entry 38.) -/
def Obligations.TaskConfiguration : Prop :=
  ∀ (q : Req) (t : Fin 256) (v : Word) (s : State),
    ∀ c ∈ [(exec (.taskEnable q t v) s, v ||| 0x80000000), (exec (.taskDisable q t v) s, v &&& 0x7FFFFFFF),
           (exec (.taskRun q t v) s, v ||| 2)],
      let w : Word := c.2
      let a := Reg.PUP_TASK_CFG t.val
      let run := (bit w 1 || s.rb a 1) && decide (fld w 29 28 = 3)
      let n := fld w 27 22
      let x : Task := { tag := fixedTag t.val, level := 3, blk := s.block, prog := fld w 17 8,
                        region := s.rf (Reg.PUP_TASK_MEM t.val) 10 0, size := s.rf (Reg.PUP_TASK_MEM t.val) 26 16 }
      let made := run && s.taskOn.contains t.val && !s.tagPresent (fixedTag t.val)
      s.takes q a w = true →
      ∃ u, c.1 = .next u ∧ u = { s with csr := u.csr, cores := u.cores, readySeq := u.readySeq, resp := {} } ∧
        u.reg a = setFld (setFld w 1 1 (b2n run)) 0 0 0 ∧
        (∀ b, b ≠ a → b ≠ Reg.PUP_QDEPTH n → u.reg b = s.reg b) ∧
        (made = false → u.cores = s.cores ∧ u.readySeq = s.readySeq ∧
          u.reg (Reg.PUP_QDEPTH n) = s.reg (Reg.PUP_QDEPTH n)) ∧
        (made = true → (∀ m, m ≠ n → u.core m = s.core m) ∧ u.readySeq = s.readySeq + 1 ∧
          u.core n = { s.core n with list := (s.core n).list ++
            [{ x with ready := true, stamp := some (s.readySeq, s.refTotal) }] })

/-- What the Puppeteer does with a core's list (R206, R312 to R316, R321, R332). At each instant the tasks that have just got
all they wait for take one number; TASK_READY makes one with its tag ready. A free core takes the saved or, with none saved,
the first ready task of the highest level that has one, at 64 or 8 cycles, and the input area of a background task reads zero
(R306); the running task is saved, at 64 cycles, for a ready task of a higher level at a bundle boundary outside trap mode
while fewer than four are saved, and after YIELD one of its own level replaces it too. A residency load that has its room puts
the program's bundles into instruction memory; the strain of a core ends 16 blocks after its last miss. In SLEEP none of these
happens. (The model's choices in it: log entries 1, 40, 41, 56 and 57.) -/
def Obligations.TaskSchedule : Prop :=
  ∀ (n : Fin 64) (tag : BitVec 16) (g : Fin 1024) (s : State),
    let c := s.core n.val
    let none_ : Nat → Prop := fun k => ∀ l, l < k → s.firstSaved c l = none ∧ s.firstReady c l = none
    (s.engineRuns = false → exec (.taskReady n tag) s = .next s ∧ exec (.dispatch n) s = .next s ∧
      exec (.preempt n) s = .next s ∧ exec (.residencyLoadDone n g) s = .next s ∧ exec (.strainExpiry n) s = .next s) ∧
    (s.engineRuns = true →
      (∃ z, z = { s with cores := z.cores, readySeq := s.readySeq + 1 } ∧
        (∀ m, z.core m = { s.core m with 
          list := (s.core m).list.map fun y =>
            if y.stamp = none ∧ s.canReady m y = true then { y with stamp := some (s.readySeq, s.refTotal) } else y }) ∧
        (∀ x, (z.core n.val).listed.find? (fun y => decide (y.tag = tag) && !y.ready && y.stamp.isSome) = some x →
          exec (.taskReady n tag) s = .next (z.setCore n.val { z.core n.val with
            list := (z.core n.val).list.map fun y => if y = x then { x with ready := true } else y })) ∧
        ((z.core n.val).listed.find? (fun y => decide (y.tag = tag) && !y.ready && y.stamp.isSome) = none →
          exec (.taskReady n tag) s = .next z)) ∧
      (s.coreFree n.val = false ∨ none_ 4 → exec (.dispatch n) s = .next s) ∧
      (s.coreFree n.val = true → ∀ k, k ≤ 3 → none_ k →
        (∀ r, s.firstSaved c k = some r → ∃ t, exec (.dispatch n) s = .next t ∧ t = { s with cores := t.cores } ∧
          (∀ m, m ≠ n.val → t.core m = s.core m) ∧
          t.core n.val = { c with st := if r.arch.tm then .trap else .run, run := some r, saved := c.saved.erase r,
                                  overhead := c.overhead + 64, busy := c.busy + 64 }) ∧
        (∀ x, s.firstSaved c k = none → s.firstReady c k = some x → ∃ t, exec (.dispatch n) s = .next t ∧
          t = { s with cores := t.cores, csr := t.csr, slots := t.slots, mem := t.mem, readySeq := s.readySeq + 1 } ∧
          (∀ m, m ≠ n.val → t.core m = s.core m) ∧ (t.core n.val).st = .run ∧
          (t.core n.val).run = some { task := s.dispatched x, arch :=
            { s.entryArch x with spillBase := sumOf (fun r => r.arch.sd) c.saved } } ∧
          (t.core n.val).list = c.list.filter (fun y => decide (y ≠ x)) ∧ (t.core n.val).saved = c.saved ∧
          (t.core n.val).overhead = c.overhead + 8 ∧ (t.core n.val).busy = c.busy + 8 ∧
          (let i := lmBase n.val + (x.region + x.size) * 64 - 256
           ∀ a, t.byte a = if x.level = 3 ∧ i ≤ a ∧ a < i + 256 then 0 else s.byte a) ∧
          ∀ a, a ≠ Reg.PUP_WAIT n.val → t.reg a = s.reg a)) ∧
      (∀ r, c.run = some r → s.rb Reg.PUP_CTRL 0 = true → r.savable c = true →
        (∀ l, l < r.task.level → (s.firstReady c l).isSome = true → r.yielded = false →
          ∃ t, exec (.preempt n) s = .next t ∧ t = { s with cores := t.cores, csr := t.csr } ∧
            (∀ m, m ≠ n.val → t.core m = s.core m) ∧
            t.core n.val = { c with st := .idle, run := none, saved := { r with yielded := false } :: c.saved,
                                    overhead := c.overhead + 64, busy := c.busy + 64 }) ∧
        ((∀ l, l < r.task.level + b2n r.yielded → s.firstReady c l = none) → exec (.preempt n) s = .next s) ∧
        (∀ k x, k ≤ r.task.level → (∀ l, l < k → s.firstReady c l = none) → s.firstReady c k = some x →
          r.yielded = true → ∃ t, exec (.preempt n) s = .next t ∧ (∀ m, m ≠ n.val → t.core m = s.core m) ∧
            (t.core n.val).saved = { r with yielded := false } :: c.saved ∧
            (t.core n.val).run.map (fun y => y.task.tag) = some x.tag ∧ (x.level ≠ 3 → t.mem = s.mem))) ∧
      ((∀ r, c.run = some r → s.rb Reg.PUP_CTRL 0 = false ∨ r.savable c = false) → exec (.preempt n) s = .next s) ∧
      (let z := s.roomAgain n.val g.val
       let d := z.core n.val
       (c.resident.all (fun y => decide (y.prog ≠ g.val) || !y.noRoom) = true → z = s) ∧
       (∀ r p, d.resident.find? (fun y => decide (y.prog = g.val) && y.loading && !y.noRoom) = some r →
        s.prog g.val = some p → Memory.wf z.mem = true → ∃ t, exec (.residencyLoadDone n g) s = .next t ∧
          t = { z with cores := t.cores, mem := t.mem, readySeq := z.readySeq + 1, pending := s.pending } ∧
          t.core n.val = { d with
            resident := d.resident.map (fun y => if y.prog = g.val then { y with loading := false } else y)
            list := (t.core n.val).list } ∧
          (∀ m, m ≠ n.val → t.core m = { z.core m with list := (t.core m).list }) ∧
          (∀ i, i < 8 * r.len → t.byte (imBase n.val + 8 * r.base + i) = z.byte (psBase + 8 * p.base + i)) ∧
          ∀ a, a < imBase n.val + 8 * r.base ∨ imBase n.val + 8 * r.base + 8 * r.len ≤ a → t.byte a = z.byte a) ∧
       (d.resident.find? (fun y => decide (y.prog = g.val) && y.loading && !y.noRoom) = none ∨ z.prog g.val = none →
        exec (.residencyLoadDone n g) s = .next { z with pending := s.pending })) ∧
      exec (.strainExpiry n) s = .next (if s.block < c.strain then s else s.setCore n.val { c with strain := 0 }))

/-- The contribution of a task that has met TEND (R46, R205, R365 to R368): one of a device kernel is not counted; one of a
wrong epoch or a second one is counted DUP and one whose stage has closed LATE, and neither changes a bus; any other is
marked, and each of its lanes that R367 allows is added exactly into its bus, and ranks that nothing can feed any more close
(R374). The task completes once its contribution is handed over: the core is idle, and the run of a background entry is noted,
as is the end condition of the slot's own occupant, for its block where the fabric has reported a later one (R112, R113,
R290). Before TEND, while a wave fetch is outstanding, or while a lower Voice Engine waits at the port (R371), neither command
does anything. (The model's choices in it: log entries 1, 4, 8 and 41.) -/
def Obligations.TaskEnd : Prop :=
  ∀ (n : Fin 64) (s : State),
    let c := s.core n.val
    (s.engineRuns = false ∨ c.run = none →
      exec (.contributionAccept n) s = .next s ∧ exec (.taskCompletion n) s = .next s) ∧
    (∀ r, s.engineRuns = true → c.run = some r →
      (r.delivered = false → r.ended = none ∨ r.fetches ≠ [] ∨ s.portTaken n.val = true →
        exec (.contributionAccept n) s = .next s ∧ exec (.taskCompletion n) s = .next s) ∧
      (r.delivered = true → exec (.contributionAccept n) s = .next s) ∧
      (∀ x, r.delivered = false → r.ended = some x → r.fetches = [] → s.portTaken n.val = false →
        let key := if tagKind x.tag = 2 then 16384 + x.tag.toNat % 256 else tagCtx x.tag
        let dup := decide (tagKind x.tag ≠ 2) &&
          (decide (x.epoch ≠ s.epochFor key x.blk) || s.col.accepted.contains (key, x.blk))
        ∃ (t u : State), exec (.contributionAccept n) s = .next t ∧ t = { u.closeEarly with pending := s.pending } ∧
          t.csr = u.csr ∧ t.ports = u.ports ∧ t.col = { u.col with closed := t.col.closed } ∧ t.slots = s.slots ∧
          (∀ m, t.core m = { u.core m with list := (t.core m).list }) ∧
          u = { s with csr := u.csr, ports := u.ports, col := u.col, cores := u.cores, draw := s.draw + 1 } ∧
          u.core n.val = { c with run := some { r with delivered := true } } ∧
          (∀ m, m ≠ n.val → u.core m = s.core m) ∧ u.rf Reg.COL_DRAIN 15 0 = (Config.freeValue 16 s.draw).toNat ∧
          (tagKind x.tag = 3 → u.col = s.col ∧ ∀ a, a ≠ Reg.COL_DRAIN → u.reg a = s.reg a) ∧
          (tagKind x.tag ≠ 3 → dup = true → u.col = s.col ∧ u.rb Reg.COL_STAT 1 = true ∧
            (u.reg (Reg.COL_CNT 1)).toNat = min ((s.reg (Reg.COL_CNT 1)).toNat + 1) 0xFFFFFFFF) ∧
          (tagKind x.tag ≠ 3 → dup = false → s.stageClosed x.tag x.blk = true →
            u.col = s.col ∧ u.rb Reg.COL_STAT 0 = true ∧ u.rb Reg.SYS_DET 3 = true ∧
            (u.reg (Reg.COL_CNT 0)).toNat = min ((s.reg (Reg.COL_CNT 0)).toNat + 1) 0xFFFFFFFF) ∧
          (tagKind x.tag ≠ 3 → dup = false → s.stageClosed x.tag x.blk = false → (∀ l ∈ x.lanes, l.1 < 256) →
            u.col.accepted = (key, x.blk) :: s.col.accepted ∧
            ∀ k b j, b < 256 → j < 16 → u.bus k b j = s.bus k b j +
              x.lanes.foldl (fun z l =>
                if k = x.blk ∧ l.1 = b ∧ s.laneAllowed x.tag x.part x.blk b = true then z + (l.2.getD j 0).toInt
                else z) 0)) ∧
      (r.delivered = true ∨ (r.ended.isSome = true ∧ r.fetches = [] ∧ s.portTaken n.val = false) →
        ∃ t, exec (.taskCompletion n) s = .next t ∧ (t.core n.val).st = .idle ∧ (t.core n.val).run = none ∧
          (t.core n.val).saved = c.saved ∧ (∀ m, m ≠ n.val → (t.core m).run = (s.core m).run) ∧
          (r.task.level = 3 → t.rb (Reg.PUP_TASK_CFG (r.task.tag.toNat % 256)) 1 = false ∧
            tget 0 t.runs (r.task.tag.toNat % 256) = (tget 0 s.runs (r.task.tag.toNat % 256) + 1) % 2 ^ 32) ∧
          (r.task.level ≠ 3 → t.runs = s.runs) ∧
          (∀ v, v = r.task.tag.toNat % 8192 →
            let x := s.slot v
            let theirs := tagKind r.task.tag = 0 ∧ r.doneInd = true ∧ x.state ≠ .free ∧ x.firstBlk ≤ r.task.blk ∧
              s.epochFor v r.task.blk = r.task.epoch
            (theirs → t.slot v = { x with endBlk := some (min r.task.blk (x.endBlk.getD r.task.blk)) } ∧
              ∀ m, m ≠ v → t.slot m = s.slot m) ∧
            (¬ theirs → t.slots = s.slots))))

/-- Migration and recovery (R245 to R247, R324, R325, R419, R420). A copy moves the context, but its frames, to the
new core once no task of it runs; when it is complete the context lives there and a held publication is free. RESUME
puts the recovery kernel on a held core; a kernel that passes clears spill stack and save area and leaves the core
idle until the next block, one that fails clears and counts as much and sets it out of service, with the entries placed on it
disabled and vector 25 signalled (R333, R493); on a Stage
Engine it reloads the program, or clears the spill stack and leaves the engine EMPTY and out of service (R400). (The model's
choices in it: log entries 1 and 52.) -/
def Obligations.CoreRecovery : Prop :=
  ∀ (q : Req) (n : Fin 64) (v : Fin 8192) (w w' : Word) (s : State),
    let x := s.ctx v.val
    let c := s.core n.val
    let core : Fin 66 := ⟨n.val, by omega⟩
    (∀ m, s.engineRuns = true → x.mig = some m → m.copying = false → s.tagActive (voiceTag v.val false) = false →
      Memory.wf s.mem = true →
      ∃ t, exec (.migrationCopy v) s = .next t ∧ t = { s with mem := t.mem, ctxs := t.ctxs, cores := t.cores } ∧
        t.ctx v.val = { x with mig := some { m with copying := true } } ∧ (∀ y, y ≠ v.val → t.ctx y = s.ctx y) ∧
        (∀ i, i < x.size * 64 - 256 →
          t.byte (lmBase m.toVe + m.toBase * 64 + i) = s.byte (lmBase x.ve + x.base * 64 + i)) ∧
        (4 ≤ x.size → x.pubFrame ≤ 1 → ∀ a, a < lmBase m.toVe + m.toBase * 64 ∨
          lmBase m.toVe + (m.toBase + x.size) * 64 ≤ a → t.byte a = s.byte a)) ∧
    (∀ m, s.engineRuns = true → x.mig = some m → m.copying = true ∨ s.tagActive (voiceTag v.val false) = true →
      exec (.migrationCopy v) s = .next s) ∧
    (s.engineRuns = false ∨ x.mig = none → exec (.migrationCopy v) s = .next s ∧ exec (.migrationCopyDone v) s = .next s) ∧
    (∀ m, s.engineRuns = true → x.mig = some m →
      (m.copying = true → ∃ t, exec (.migrationCopyDone v) s = .next t ∧
        t = { s with ctxs := t.ctxs, pubs := t.pubs, cores := t.cores, readySeq := s.readySeq + 1 } ∧
        t.ctx v.val = { x with ve := m.toVe, base := m.toBase, mig := none } ∧ (∀ y, y ≠ v.val → t.ctx y = s.ctx y) ∧
        t.pubs = (s.pubs.map fun p => if p.voice = v.val then { p with heldForCopy := false } else p) ∧
        ∀ k, t.core k = { s.core k with list := (t.core k).list }) ∧
      (m.copying = false → exec (.migrationCopyDone v) s = .next s)) ∧
    (w' = w ||| 2 → s.takes q (Reg.VE_CTRL n.val) w' = true →
      let u := { s.setReg (Reg.VE_CTRL n.val) (setFld (s.reg (Reg.VE_CTRL n.val)) 0 0 (fld w' 0 0)) with resp := {} }
      (c.st = .haltfault → exec (.veResume q n w) s =
        .next (u.setCore n.val { c with st := .run, kernel := some 1, heldArch := none })) ∧
      (c.st ≠ .haltfault → exec (.veResume q n w) s = .next u)) ∧
    (∀ pass, s.engineRuns = false ∨ c.kernel ≠ some 1 → exec (.recoveryKernelDone core pass) s = .next s) ∧
    (s.engineRuns = true → c.kernel = some 1 →
      (∃ t, exec (.recoveryKernelDone core true) s = .next t ∧ t = { s with mem := t.mem, cores := t.cores } ∧
        t.core n.val = { c with st := .idle, kernel := none, backAtBlock := true, bundles := c.bundles + 48000 } ∧
        (∀ m, m ≠ n.val → t.core m = s.core m) ∧
        ∀ a, t.byte a = if (lmBase n.val ≤ a ∧ a < lmBase n.val + 0xC00) ∨
            (lmBase n.val + 0x1000 ≤ a ∧ a < lmBase n.val + 0x2000) then 0 else s.byte a) ∧
      (∃ t, exec (.recoveryKernelDone core false) s = .next t ∧ (t.core n.val).oos = true ∧ (t.core n.val).st = .off ∧
        (t.core n.val).run = none ∧ (t.core n.val).saved = [] ∧ (t.core n.val).list = [] ∧
        (t.core n.val).bundles = c.bundles + 48000 ∧ (∀ p, p < 2 → t.rb (Reg.HPx_IRQ_STAT p) 25 = true) ∧
        (∀ a, t.byte a = if (lmBase n.val ≤ a ∧ a < lmBase n.val + 0xC00) ∨
            (lmBase n.val + 0x1000 ≤ a ∧ a < lmBase n.val + 0x2000) then 0 else s.byte a) ∧
        (∀ m, m ≠ n.val → t.core m = { s.core m with list := (t.core m).list }) ∧
        ∀ k, k < 256 → s.taskVe k = n.val → t.taskEn k = false ∧ (s.taskEn k = true → t.rb Reg.PUP_STAT 3 = true))) ∧
    (∀ e : Fin 2, ∀ se : Fin 66, se.val = 64 + e.val →
      (s.engineRuns = false ∨ (s.stg e.val).kernel = false → ∀ pass, exec (.recoveryKernelDone se pass) s = .next s) ∧
      (s.engineRuns = true → (s.stg e.val).kernel = true →
        exec (.recoveryKernelDone se true) s = exec (.stgAutoRestart e) s ∧
        ∃ t, exec (.recoveryKernelDone se false) s = .next t ∧ (t.stg e.val).st = .empty ∧
          (t.stg e.val).kernel = false ∧ (t.stg e.val).oos = true ∧ (t.stg e.val).tr = none ∧
          (∀ a, t.byte a = if seBase e.val ≤ a ∧ a < seBase e.val + 0xC00 then 0 else s.byte a) ∧
          ∀ f, f ≠ e.val → t.stg f = s.stg f))

/-! ### Cores -/

/-- One issue of a bundle (R172 to R178, R187, R234, R236, R244, R409, R410). A Voice Engine takes it only while a task runs
that has not met TEND and awaits no trap: a bundle that must wait, and a task that waits for its fetches after TEND or an
exception, takes one cycle of occupancy and does nothing else (R174); a fault or a halt stops it without effect, with the
fault left to be taken, or the core in HALTFAULT, every task on it discarded and vector 25 signalled; else the registers are
those after the bundle, loads included, only the bytes that its store slots name change, to the values stored, and VE_BUNDLES
counts one. On a Stage Engine a bundle that reaches no memory does the same; TEND stops the program and YIELD lets it wait.
One that loads, stores or fetches waits while a Wave Store bank is busy; in the engine's own memory it reads as a Voice Engine
does, and a device access is made as a requester's, a load's value standing until it arrives (R399, R402). A fault is left to
be taken, and a halt stops the engine in HALTFAULT (R418). Where no bundle is issued, nothing happens (log entry 1). (The
model's choices in it: log entries 29, 30, 40, 58 and 61.) -/
def Obligations.BundleIssued : Prop :=
  ∀ (n : Fin 64) (e : Fin 2) (s : State),
    let c := s.core n.val
    let ve : Fin 66 := ⟨n.val, by omega⟩
    let se : Fin 66 := ⟨64 + e.val, by omega⟩
    let g := s.stg e.val
    let wp := (s.free 3).1.toNat
    let waited : TaskRun → Bool → Prop := fun r fifth => ∃ t u, exec (.bundleIssue ve) s = .next t ∧
      t = { s with csr := t.csr, cores := t.cores } ∧ (∀ m, m ≠ n.val → t.core m = s.core m) ∧
      t.core n.val = { c with run := some u, busy := c.busy + 1, st := if r.arch.tm then .trap else .run } ∧
      u = { r with occ := r.occ + 1, fifth := fifth, task := { r.task with overrun := u.task.overrun } }
    (s.engineRuns = false → exec (.bundleIssue ve) s = .next s ∧ exec (.bundleIssue se) s = .next s) ∧
    (c.run = none ∨ c.kernel.isSome = true → exec (.bundleIssue ve) s = .next s) ∧
    (∀ r, s.engineRuns = true → c.run = some r → c.kernel = none →
      (r.ended.isSome = true ∨ r.pend ≠ .none →
        (r.fetches = [] → exec (.bundleIssue ve) s = .next s) ∧ (r.fetches ≠ [] → waited r r.fifth)) ∧
      (r.ended = none → r.pend = .none →
        let o := issue r.arch (s.veEnv n.val r) r.lanes r.fetches wp (s.veFetch n.val r)
        (o = .wait → waited r
          ((slotsOf r.arch (s.veEnv n.val r) (s.veFetch n.val r)).isFifth r.fetches r.fifth)) ∧
        (∀ tpc tnpc tc ta, o = .fault tpc tnpc tc ta → ∃ t, exec (.bundleIssue ve) s = .next t ∧
          t = { s with csr := t.csr, cores := t.cores } ∧ (∀ m, m ≠ n.val → t.core m = s.core m) ∧
          (t.core n.val).bundles = c.bundles ∧ (t.core n.val).busy = c.busy + 1 ∧
          ∃ u, (t.core n.val).run = some u ∧ u.arch = r.arch ∧ u.pend = .fault tpc tnpc tc ta ∧ u.fetches = r.fetches ∧
            u.ended = none) ∧
        (∀ tpc tnpc tc ta, o = .halt tpc tnpc tc ta → ∃ t, exec (.bundleIssue ve) s = .next t ∧
          (t.core n.val).run = none ∧ (t.core n.val).saved = [] ∧ t.reg (Reg.VE_FAULTADDR n.val) = ta ∧
          t.rb (Reg.VE_FAULT n.val) 23 = true ∧ t.rf (Reg.VE_FAULT n.val) 15 0 = r.task.tag.toNat ∧
          t.rb Reg.SYS_DET 4 = true ∧ (∀ m, m ≠ n.val → (t.core m).run = (s.core m).run) ∧
          (t.core n.val).busy = c.busy + 1 ∧ (∀ p, p < 2 → t.rb (Reg.HPx_IRQ_STAT p) 25 = true) ∧
          (t.reg (Reg.VE_CNT n.val 1)).toNat = min ((s.reg (Reg.VE_CNT n.val 1)).toNat + 1) 0xFFFFFFFF ∧
          (s.rb (Reg.VE_CTRL n.val) 0 = true →
            (t.core n.val).st = .haltfault ∧ (t.core n.val).heldArch = some r.arch ∧ (t.core n.val).kernel = none) ∧
          (s.rb (Reg.VE_CTRL n.val) 0 = false → (t.core n.val).kernel = some 1)) ∧
        (∀ a p, o = .done a p → ∃ t, exec (.bundleIssue ve) s = .next t ∧
          t = { s with csr := t.csr, cores := t.cores, mem := t.mem, wsAcc := t.wsAcc, draw := t.draw } ∧
          (∀ m, m ≠ n.val → t.core m = s.core m) ∧ (t.core n.val).bundles = c.bundles + 1 ∧
          (t.core n.val).busy = c.busy + 1 ∧ (t.core n.val).saved = c.saved ∧ (t.core n.val).list = c.list ∧
          (∃ u, (t.core n.val).run = some u ∧
            u.arch = s.lmLoad n.val p.mb.access (s.lmLoad n.val p.ma.access a) ∧ u.pend = windowPending p.fl.flow ∧
            u.ended.isSome = (match p.fl.flow with
              | .tend _ => true
              | _ => false)) ∧
          (let kept : MemAccess → Prop := fun x => x.store = true →
            (if x.size = 8 then t.dword (lmBase n.val + x.addr) = x.data
             else t.word (lmBase n.val + x.addr) = x.data.setWidth 32)
           (∀ x ∈ p.mb.access, kept x) ∧ ((∀ x ∈ p.mb.access, x.store = false) → ∀ x ∈ p.ma.access, kept x)) ∧
          ∀ b, (∀ x ∈ p.ma.access.toList ++ p.mb.access.toList, x.store = true →
              b < lmBase n.val + x.addr ∨ lmBase n.val + x.addr + (if x.size = 8 then 8 else 4) ≤ b) →
            t.byte b = s.byte b))) ∧
    (g.tr = none ∨ (g.st ≠ .run ∧ g.st ≠ .trap) ∨ g.stall ≠ none → exec (.bundleIssue se) s = .next s) ∧
    (∀ r, s.engineRuns = true → g.tr = some r → g.st = .run ∨ g.st = .trap → g.stall = none →
      r.ended = none → r.pend = .none →
        let o := issue r.arch (s.seEnv e.val r) r.lanes r.fetches wp
          (s.dword (seBase e.val + 0x2000 + 8 * r.arch.pc)).toNat
        (o = .wait → exec (.bundleIssue se) s = .next (s.setStg e.val { g with
          st := if r.arch.tm then .trap else .run
          tr := some { r with fifth := (slotsOf r.arch (s.seEnv e.val r)
            (s.dword (seBase e.val + 0x2000 + 8 * r.arch.pc)).toNat).isFifth r.fetches r.fifth } })) ∧
        (∀ a p, o = .done a p → p.ma.access = none → p.mb.access = none → p.ma.wf = none →
          let u := r.issued a p none
          ∃ t, exec (.bundleIssue se) s = .next t ∧ (∀ f, f ≠ e.val → t.stg f = s.stg f) ∧ t.mem = s.mem ∧
            (p.fl.flow ≠ .yield → (∀ d, p.fl.flow ≠ .tend d) →
              t = { s with stgs := t.stgs, draw := t.draw } ∧
              t.stg e.val = { g with tr := some u, st := if a.tm then .trap else .run }) ∧
            (p.fl.flow = .yield → s.stgWakeDue e.val = false →
              t.stg e.val = { g with tr := some u, st := .wait }) ∧
            (p.fl.flow = .yield → s.stgWakeDue e.val = true →
              t.stg e.val = { g with tr := some u, st := if a.tm then .trap else .run }) ∧
            (∀ d, p.fl.flow = .tend d → r.fetches = [] → (t.stg e.val).st = .stopped ∧ (t.stg e.val).tr = none)) ∧
        (∀ tpc tnpc tc ta, o = .fault tpc tnpc tc ta → s.posted = [] → ∃ t, exec (.bundleIssue se) s = .next t ∧
          t = { s with csr := t.csr, txns := t.txns, stgs := t.stgs } ∧ (∀ f, f ≠ e.val → t.stg f = s.stg f) ∧
          (fld tc 7 0 ≠ 4 → fld tc 7 0 ≠ 5 → t.csr = s.csr ∧ t.txns = s.txns) ∧
          t.stg e.val = { g with
            tr := some { r with pend := .fault tpc tnpc tc ta }, st := if r.arch.tm then .trap else .run }) ∧
        (∀ tpc tnpc tc ta, o = .halt tpc tnpc tc ta → s.posted = [] → ∃ t, exec (.bundleIssue se) s = .next t ∧
          (t.stg e.val).st = .haltfault ∧ (t.stg e.val).tr = none ∧ t.rb (Reg.STG_FAULT e.val) 23 = true ∧
          t.rf (Reg.STG_FAULT e.val) 31 24 = fld tc 7 0 ∧ t.reg (Reg.STG_FAULTADDR e.val) = ta ∧
          t.rb (Reg.STG_STAT e.val) 0 = true ∧ (∀ m, t.holder m ≠ some (seReq e.val)) ∧ t.mem = s.mem ∧ t.cores = s.cores ∧
          (t.reg (Reg.STG_CNT_FAULT e.val)).toNat = min ((s.reg (Reg.STG_CNT_FAULT e.val)).toNat + 1) 0xFFFFFFFF ∧
          (s.rb (Reg.STG_CTRL e.val) 6 = false ∨ s.rb (Reg.STG_CTRL e.val) 5 = true →
            (t.stg e.val).heldArch = some r.arch ∧ (t.stg e.val).kernel = g.kernel)) ∧
        (∀ a p, o = .done a p → s.seWaits e.val p = true → exec (.bundleIssue se) s = .next s) ∧
        (∀ a p, o = .done a p → s.seWaits e.val p = false → p.fl.flow ≠ .yield → p.fl.flow ≠ .rte →
          (∀ d, p.fl.flow ≠ .tend d) →
          ((∀ x ∈ p.ma.access.toList ++ p.mb.access.toList, seOwn e.val r.arch.tm x.addr x.size = true) →
            let q := s.startFetch (s.seEnv e.val r) p
            let ld : Option MemAccess → Arch → Arch := fun y b => match y with
              | none => b
              | some x => if x.store then b
                else b.loaded x.dst (if x.size = 8 then s.dword x.addr else (s.word x.addr).setWidth 64)
            let kept : State → MemAccess → Prop := fun t x => x.store = true →
              (if x.size = 8 then t.dword x.addr = x.data else t.word x.addr = x.data.setWidth 32)
            ∃ t, exec (.bundleIssue se) s = .next t ∧ t = { q.2 with mem := t.mem, stgs := t.stgs } ∧
              (∀ f, f ≠ e.val → t.stg f = s.stg f) ∧
              t.stg e.val = { g with
                tr := some (r.issued (ld p.mb.access (ld p.ma.access a)) p q.1), st := if a.tm then .trap else .run } ∧
              (∀ x ∈ p.mb.access, kept t x) ∧
              ((∀ x ∈ p.mb.access, x.store = false) → ∀ x ∈ p.ma.access, kept t x) ∧
              ∀ b, (∀ x ∈ p.ma.access.toList ++ p.mb.access.toList, x.store = true →
                b < x.addr ∨ x.addr + (if x.size = 8 then 8 else 4) ≤ b) → t.byte b = s.byte b) ∧
          (∀ x, p.ma.wf = none → seOwn e.val r.arch.tm x.addr x.size = false →
            (p.ma.access = some x ∧ p.mb.access = none) ∨ (p.ma.access = none ∧ p.mb.access = some x) →
            let m := s.seServe e.val x.store x.addr x.size x.data
            let l := dstWords x.dst (BitVec.ofNat 64 (leNat (m.bytes.map (·.2))))
            m.state.stg e.val = g → ∃ t, exec (.bundleIssue se) s = .next t ∧
              t = { m.state with stgs := t.stgs, pending := s.pending } ∧
              (∀ f, f ≠ e.val → t.stg f = m.state.stg f) ∧
              t.stg e.val = { g with
                tr := some (r.issued a p none), st := if a.tm then .trap else .run
                stall := if x.store = true ∨ l = [] then none else some l })))

/-- What the slots of a bundle do. X, alone in its bundle (R150, R156 to R158, R179, R181 to R185, R197): ADD wraps and ADDS
saturates; SUB and CMP set C where there is no borrow; a shift moves its last bit into C; MULQ and CMULQ round half up;
MAC and CMA add, subtract or set the exact product, ACM a value, and set AV and AVS where a half leaves 80 bits; RDA and RDZ round
one or both halves and fit them to 32 bits; NORM takes one Newton step; EXP and EXPA count redundant sign bits; ADDA
keeps a circular pointer within its buffer; a move or an immediate writes its register. V sets SVS; no other register
and no other bit of SR changes.

MA and MB (R185, R187 to R193, R202): a load or a store addresses the byte at Pn, its Pn is moved as the mode says, within the
buffer of Bn and Ln where Ln is not 0; it moves a word, a pair, or half an accumulator. PFR copies a slot of the parameter
frame, WF starts a fetch at the phase and advances it, its value being interpolated linearly; SEND names a lane and a value,
which the lane keeps multiplied by its gain. What the classes do not define is bad.

F and the long instruction (R195 to R200, R204, R216): each instruction's effect, a branch whose condition holds having the
target PC plus its offset, and a branch or a loop in a delay slot being a NOP. Then the bundle (R210 to R216, R219, R220, R240):
where nothing waits, faults or halts it issues, its successor is its branch's target after the delay slot, the loop unit's, or
the next bundle; a loop pushes a level, and its end counts the levels that end there, innermost first; WINC, WDEC and WSET move
WP, MTSR writes SR with RCV one bundle later, and RTE restores SR, WP and the stack and issues the bundle at TPC in its
recorded position. -/
def Obligations.SlotArithmetic : Prop :=
  (∀ (a : Arch) (p : Slots) (d x y : Fin 32) (zd z zb : Fin 16) (k op m : Fin 4) (h sat rg cj : Fin 2) (e : Fin 32)
    (n fn : Fin 8) (cc : Fin 16) (imm : Nat),
    p.ma = {} → p.mb = {} → p.fl = {} → imm < 2 ^ 24 →
    let gx := a.gr x.val
    let gy := a.gr y.val
    let gd := a.gr d.val
    let dxy : Nat → Nat → Nat := fun o f => o * 2 ^ 18 + d.val * 2 ^ 13 + x.val * 2 ^ 8 + y.val * 2 ^ 3 + f
    let dzz : Nat → Nat → Nat := fun o f => o * 2 ^ 18 + zd.val * 2 ^ 14 + z.val * 2 ^ 10 + zb.val * 2 ^ 6 + f
    let is : Nat → Prop := fun w => p.x = xSlot a w imm
    let beyond : Int → Bool := fun r => decide (r < -2147483648) || decide (2147483647 < r)
    let near : Int → Word := fun r => if 2147483647 < r then 0x7FFFFFFF else if r < -2147483648 then 0x80000000
      else BitVec.ofInt 32 r
    let fit : Int → Word := fun v => if sat.val = 1 then near v else BitVec.ofInt 32 v
    let others : Word → List Nat → Prop := fun sr l => ∀ i, i ∉ l → sr.getLsbD i = a.sr.getLsbD i
    let flags : Word → Word → Bool → Bool → Prop := fun sr r c v =>
      bit sr 0 = decide (r = 0) ∧ bit sr 1 = bit r 31 ∧ bit sr 2 = c ∧ bit sr 3 = v ∧
      bit sr 6 = (bit a.sr 6 || v) ∧ others sr [0, 1, 2, 3, 6]
    let put : Word → Bool → Bool → Prop := fun r c v => p.x.bad = false ∧
      ∃ sr, a.writeSlots p = { a.setGp (a.phys d.val) r with sr := sr } ∧ flags sr r c v
    let quiet : Word → Prop := fun r => p.x.bad = false ∧ a.writeSlots p = a.setGp (a.phys d.val) r
    let pair : Word → Word → Arch := fun u v =>
      (a.setGp (a.phys (2 * zd.val)) u).setGp (a.phys (2 * zd.val + 1)) v
    let putZ : Word → Word → Bool → Prop := fun u v o => p.x.bad = false ∧ ∃ sr,
      a.writeSlots p = { pair u v with sr := sr } ∧
      bit sr 3 = o ∧ bit sr 6 = (bit a.sr 6 || o) ∧ others sr [3, 6]
    let sum : Int := gx.toInt + gy.toInt
    let dif : Int := gx.toInt - gy.toInt
    let carry := decide (2 ^ 32 ≤ gx.toNat + gy.toNat)
    let noBorrow := decide (gy.toNat ≤ gx.toNat)
    let half : Nat → Int := fun i => (a.accu k.val i).toInt
    let accum : Int → Int → Int := fun old q =>
      if op.val = 0 then old + q else if op.val = 1 then old - q else if op.val = 2 then q else -q
    let raised : Int → Int := fun v => v * 2 ^ 32
    let wide : Int → Bool := fun v => decide (v < -(2 ^ 79)) || decide (2 ^ 79 ≤ v)
    let fitted : Int → Acc80 → Prop := fun v u =>
      (wide v = false → u.toInt = v) ∧ (wide v = true → sat.val = 0 → u = BitVec.ofInt 80 v) ∧
      (wide v = true → sat.val = 1 → u.toInt = if v < 0 then -(2 ^ 79) else 2 ^ 79 - 1)
    let av : Word → Bool → Prop := fun sr o => bit sr 4 = o ∧ bit sr 7 = (bit a.sr 7 || o) ∧ others sr [4, 7]
    let q := (gx.toInt * gy.toInt + 2 ^ 30) / 2 ^ 31
    let mac : Int := accum (half h.val) (2 * (gx.toInt * gy.toInt))
    let ev : Nat := if rg.val = 0 then e.val else (a.gr e.val).toNat % 32
    let drop : Nat := if ev < 16 then 32 - ev else 64 - ev
    let out : Int → Int := fun v => (v + 2 ^ (drop - 1)) / 2 ^ drop
    let ar := (a.gr (2 * z.val)).toInt
    let ai := (a.gr (2 * z.val + 1)).toInt
    let br := (a.gr (2 * zb.val)).toInt
    let bi := (a.gr (2 * zb.val + 1)).toInt
    let ci := if cj.val = 1 then -bi else bi
    let pr : Int := 2 * (ar * br - ai * ci)
    let pi : Int := 2 * (ar * ci + ai * br)
    let f2 : Int := 3 * 2 ^ 62 - (ar * ar + ai * ai)
    let newton : Int → Int := fun v => (v * f2 + 2 ^ 62) / 2 ^ 63
    let lead : (bits : Nat) → BitVec bits → Nat → Prop := fun bits w r => r < bits ∧
      (∀ i, bits - 1 - r ≤ i → i < bits → w.getLsbD i = w.getLsbD (bits - 1)) ∧
      (r < bits - 1 → w.getLsbD (bits - 2 - r) ≠ w.getLsbD (bits - 1))
    let shifted : Nat → Nat → Bool → Prop := fun f c s =>
      let r : Int := gx.toInt * 2 ^ c
      let last := decide (0 < c) && bit gx (c - 1)
      if f = 0 then put (if s then near r else gx <<< c) (decide (0 < c) && bit gx (32 - c)) (beyond r)
      else if f = 1 then put (gx.sshiftRight c) last false
      else if f = 2 then put (gx >>> c) last false
      else put (if c = 0 then gx else BitVec.ofInt 32 ((gx.toInt + 2 ^ (c - 1)) / 2 ^ c)) last false
    let sx : Int := if imm < 2 ^ 23 then imm else (imm : Int) - 2 ^ 24
    let si : Word := BitVec.ofInt 32 sx
    let b := (a.px 1 n.val).toNat
    let l := (a.px 2 n.val).toNat
    let moved : Int → Prop := fun by_ => p.x.bad = false ∧ ∃ u : Word, a.writeSlots p = a.setPtr (a.pkey 0 n.val) u ∧
      (l = 0 → u = a.px 0 n.val + BitVec.ofInt 32 by_) ∧
      (l ≠ 0 → b + l ≤ 2 ^ 32 → b ≤ u.toNat ∧ u.toNat < b + l ∧
        ((u.toNat : Int) - ((a.px 0 n.val).toNat + by_)) % l = 0)
    let fZ := bit a.sr 0
    let fN := bit a.sr 1
    let fC := bit a.sr 2
    let fV := bit a.sr 3
    let conds := [fZ, !fZ, fC, !fC, fN, !fN, fV, !fV, fC && !fZ, !fC || fZ, fN == fV, fN != fV,
      !fZ && fN == fV, fZ || fN != fV, true]
    -- ALUA
    (is (dxy 0x0C 0) → put (gx + gy) carry (beyond sum)) ∧
    (is (dxy 0x0C 1) → put (near sum) carry (beyond sum)) ∧
    (is (dxy 0x0C 2) → put (gx - gy) noBorrow (beyond dif)) ∧
    (is (dxy 0x0C 3) → put (near dif) noBorrow (beyond dif)) ∧
    (is (dxy 0x0C 4) → put (if gx.toInt ≤ gy.toInt then gx else gy) false false) ∧
    (is (dxy 0x0C 5) → put (if gx.toInt ≤ gy.toInt then gy else gx) false false) ∧
    (is (dxy 0x0C 6) → (p.x.bad = true ↔ d.val ≠ 0) ∧ (d.val = 0 →
      ∃ sr, a.writeSlots p = { a with sr := sr } ∧ flags sr (gx - gy) noBorrow (beyond dif))) ∧
    (is (dxy 0x0C 7) → p.x.bad = true) ∧
    -- ALUB, SHI, UNA
    (is (dxy 0x0D 0) → put (gx &&& gy) false false) ∧ (is (dxy 0x0D 1) → put (gx ||| gy) false false) ∧
    (is (dxy 0x0D 2) → put (gx ^^^ gy) false false) ∧ (is (dxy 0x0D 3) → put (gx &&& ~~~ gy) false false) ∧
    (is (dxy 0x0D (4 + m.val)) → shifted m.val (gy.toNat % 32) false) ∧
    (is (0x0E * 2 ^ 18 + d.val * 2 ^ 13 + x.val * 2 ^ 8 + m.val * 2 ^ 6 + e.val * 2 + sat.val) →
      (m.val ≠ 0 ∧ sat.val = 1 → p.x.bad = true) ∧
      (m.val = 0 ∨ sat.val = 0 → shifted m.val e.val (decide (sat.val = 1)))) ∧
    (is (0x0F * 2 ^ 18 + d.val * 2 ^ 13 + x.val * 2 ^ 8 + fn.val * 2 ^ 5) →
      let abs : Int := if gx.toInt < 0 then -gx.toInt else gx.toInt
      (fn.val = 0 → put gx false false) ∧ (fn.val = 1 → put (-gx) false (beyond (-gx.toInt))) ∧
      (fn.val = 2 → put (near (-gx.toInt)) false (beyond (-gx.toInt))) ∧
      (fn.val = 3 → put (BitVec.ofInt 32 abs) false (beyond abs)) ∧ (fn.val = 4 → put (near abs) false (beyond abs)) ∧
      (fn.val = 5 → put (~~~ gx) false false) ∧ (6 ≤ fn.val → p.x.bad = true)) ∧
    -- MULQ, CMULQ, CADD, ADD64, NORM
    (is (dxy 0x09 (4 * sat.val)) → put (fit q) (bit a.sr 2) (beyond q)) ∧
    (is (dzz 0x0A (sat.val * 2 ^ 5 + cj.val * 2 ^ 4)) →
      let u := (pr + 2 ^ 31) / 2 ^ 32
      let v := (pi + 2 ^ 31) / 2 ^ 32
      putZ (fit u) (fit v) (beyond u || beyond v)) ∧
    (is (dzz 0x0B (sat.val * 2 ^ 5 + op.val * 2 ^ 3)) →
      (op.val = 0 → putZ (fit (ar + br)) (fit (ai + bi)) (beyond (ar + br) || beyond (ai + bi))) ∧
      (op.val = 1 → putZ (fit (ar - br)) (fit (ai - bi)) (beyond (ar - br) || beyond (ai - bi))) ∧
      (2 ≤ op.val → zb.val ≠ 0 → p.x.bad = true) ∧
      (op.val = 2 → zb.val = 0 → putZ (a.gr (2 * z.val)) (a.gr (2 * z.val + 1)) false) ∧
      (op.val = 3 → zb.val = 0 → putZ (a.gr (2 * z.val)) (fit (-ai)) (beyond (-ai)))) ∧
    (is (dzz 0x10 (rg.val * 2 ^ 5)) →
      let r : Dword := if rg.val = 1 then (a.gr (2 * z.val + 1) ++ a.gr (2 * z.val)) - (a.gr (2 * zb.val + 1) ++ a.gr (2 * zb.val))
        else (a.gr (2 * z.val + 1) ++ a.gr (2 * z.val)) + (a.gr (2 * zb.val + 1) ++ a.gr (2 * zb.val))
      p.x.bad = false ∧ a.writeSlots p = pair (r.extractLsb' 0 32) (r.extractLsb' 32 32)) ∧
    (is (0x06 * 2 ^ 18 + zd.val * 2 ^ 14 + z.val * 2 ^ 10) →
      putZ (near (newton ar)) (near (newton ai)) (beyond (newton ar) || beyond (newton ai))) ∧
    -- EXP, EXPA
    (is (0x07 * 2 ^ 18 + d.val * 2 ^ 13 + m.val * 2 ^ 11 + x.val * 2 ^ 6) → m.val < 2 → ∃ r : Nat, lead 32 gx r ∧
      quiet (if m.val = 0 then BitVec.ofNat 32 r else BitVec.ofInt 32 (min gd.toInt (r : Int)))) ∧
    (is (0x07 * 2 ^ 18 + d.val * 2 ^ 13 + m.val * 2 ^ 11 + z.val * 2 ^ 6) → 2 ≤ m.val → ∃ r t : Nat,
      lead 32 (a.gr (2 * z.val)) r ∧ lead 32 (a.gr (2 * z.val + 1)) t ∧
      quiet (if m.val = 2 then BitVec.ofNat 32 (min r t) else BitVec.ofInt 32 (min gd.toInt ((min r t : Nat) : Int)))) ∧
    (is (0x08 * 2 ^ 18 + d.val * 2 ^ 13 + k.val * 2 ^ 11) → ∃ r t : Nat,
      lead 80 (a.accu k.val 0) r ∧ lead 80 (a.accu k.val 1) t ∧
      quiet (BitVec.ofInt 32 (max (-16) (min 15 (((min r t : Nat) : Int) - 16))))) ∧
    -- MAC, CMA and read-out
    (is (0x02 * 2 ^ 18 + k.val * 2 ^ 16 + h.val * 2 ^ 15 + x.val * 2 ^ 10 + y.val * 2 ^ 5 + sat.val * 2 ^ 4 + op.val * 2 ^ 2) →
      p.x.bad = false ∧ ∃ v sr, a.writeSlots p = { a.setAcc (2 * k.val + h.val) v with sr := sr } ∧
        fitted mac v ∧ av sr (wide mac)) ∧
    (is (0x01 * 2 ^ 18 + k.val * 2 ^ 16 + z.val * 2 ^ 12 + zb.val * 2 ^ 8 + sat.val * 2 ^ 7 + cj.val * 2 ^ 6 + op.val * 2 ^ 4) →
      p.x.bad = false ∧ ∃ u v sr,
        a.writeSlots p = { (a.setAcc (2 * k.val) u).setAcc (2 * k.val + 1) v with sr := sr } ∧
        fitted (accum (half 0) pr) u ∧ fitted (accum (half 1) pi) v ∧
        av sr (wide (accum (half 0) pr) || wide (accum (half 1) pi))) ∧
    (is (0x05 * 2 ^ 18 + k.val * 2 ^ 16 + op.val * 2 ^ 14 + x.val * 2 ^ 9 + sat.val * 2 ^ 8) →
      let s0 := raised gx.toInt
      (op.val = 0 → (p.x.bad = true ↔ x.val ≠ 0) ∧
        (x.val = 0 → a.writeSlots p = (a.setAcc (2 * k.val) 0).setAcc (2 * k.val + 1) 0)) ∧
      (op.val = 3 → p.x.bad = false ∧ ∃ u sr, a.writeSlots p = { a.setAcc (2 * k.val) u with sr := sr } ∧
        fitted (half 0 + s0) u ∧ av sr (wide (half 0 + s0)))) ∧
    (is (0x05 * 2 ^ 18 + k.val * 2 ^ 16 + op.val * 2 ^ 14 + z.val * 2 ^ 9 + sat.val * 2 ^ 8) →
      (op.val = 1 → p.x.bad = false ∧ a.writeSlots p =
        (a.setAcc (2 * k.val) (BitVec.ofInt 80 (raised ar))).setAcc (2 * k.val + 1) (BitVec.ofInt 80 (raised ai))) ∧
      (op.val = 2 → p.x.bad = false ∧ ∃ u v sr,
        a.writeSlots p = { (a.setAcc (2 * k.val) u).setAcc (2 * k.val + 1) v with sr := sr } ∧
        fitted (half 0 + raised ar) u ∧ fitted (half 1 + raised ai) v ∧
        av sr (wide (half 0 + raised ar) || wide (half 1 + raised ai)))) ∧
    (is (0x03 * 2 ^ 18 + d.val * 2 ^ 13 + k.val * 2 ^ 11 + h.val * 2 ^ 10 + sat.val * 2 ^ 9 + rg.val * 2 ^ 8 + e.val * 2 ^ 3) →
      put (fit (out (half h.val))) (bit a.sr 2) (beyond (out (half h.val)))) ∧
    (is (0x04 * 2 ^ 18 + zd.val * 2 ^ 14 + k.val * 2 ^ 12 + sat.val * 2 ^ 11 + rg.val * 2 ^ 10 + e.val * 2 ^ 5) →
      putZ (fit (out (half 0))) (fit (out (half 1))) (beyond (out (half 0)) || beyond (out (half 1)))) ∧
    -- pointers, moves and immediates
    (is (0x13 * 2 ^ 18 + n.val * 2 ^ 15 + x.val * 2 ^ 10) → moved gx.toInt) ∧
    (is (0x11 * 2 ^ 18 + m.val * 2 ^ 16 + n.val * 2 ^ 13 + x.val * 2 ^ 8) →
      p.x.bad = false ∧ a.writeSlots p = a.setPtr (a.pkey m.val n.val) gx) ∧
    (is (0x12 * 2 ^ 18 + d.val * 2 ^ 13 + m.val * 2 ^ 11 + n.val * 2 ^ 8) → quiet (a.px m.val n.val)) ∧
    (is (0x14 * 2 ^ 18 + d.val * 2 ^ 13 + x.val * 2 ^ 8 + cc.val * 2 ^ 4) →
      (cc.val = 15 → p.x.bad = true) ∧ (∀ c, conds[cc.val]? = some c → quiet (if c then gx else gd))) ∧
    (is (0x20 * 2 ^ 18 + d.val * 2 ^ 13) → quiet si) ∧
    (is (0x21 * 2 ^ 18 + d.val * 2 ^ 13) → quiet (BitVec.ofNat 32 imm <<< 8)) ∧
    (is (0x22 * 2 ^ 18 + d.val * 2 ^ 13 + x.val * 2 ^ 8) →
      put (gx + si) (decide (2 ^ 32 ≤ gx.toNat + si.toNat)) (beyond (gx.toInt + sx))) ∧
    (is (0x23 * 2 ^ 18 + m.val * 2 ^ 16 + n.val * 2 ^ 13) →
      p.x.bad = false ∧ a.writeSlots p = a.setPtr (a.pkey m.val n.val) (BitVec.ofNat 32 imm)) ∧
    (is (0x24 * 2 ^ 18 + n.val * 2 ^ 15) → moved sx) ∧
    (is (0x25 * 2 ^ 18 + x.val * 2 ^ 8) → p.x.bad = false ∧ ∃ sr, a.writeSlots p = { a with sr := sr } ∧
      flags sr (gx - si) (decide (si.toNat ≤ gx.toNat)) (beyond (gx.toInt - sx)))) ∧
  -- MA and MB
  (∀ (a : Arch) (e : Env) (d : Fin 32) (z : Fin 16) (n : Fin 8) (m k : Fin 4) (h hi : Fin 2),
    let p := a.px 0 n.val
    let b := (a.px 1 n.val).toNat
    let l := (a.px 2 n.val).toNat
    let low := n.val * 4 + m.val
    let moved : Nat → List (Nat × Word) → Prop := fun size u =>
      let by_ : Int := if m.val = 1 then (size : Int) else (a.px 3 n.val).toInt
      (m.val = 0 → u = []) ∧ (m.val = 3 → u = [(a.pkey 0 n.val, p + a.px 3 n.val)]) ∧
      (m.val = 1 ∨ m.val = 2 → ∃ x : Word, u = [(a.pkey 0 n.val, x)] ∧
        (l = 0 → x = p + BitVec.ofInt 32 by_) ∧
        (l ≠ 0 → b + l ≤ 2 ^ 32 → b ≤ x.toNat ∧ x.toNat < b + l ∧ ((x.toNat : Int) - ((p.toNat : Int) + by_)) % l = 0))
    let loads : MemFx → Nat → List Nat → List Nat → Dst → Prop := fun f size gs accs dst => ∃ u, moved size u ∧
      f = { fx := { ptr := u }, claims := gs, accClaims := accs,
            access := some { store := false, addr := p.toNat, size := size, dst := dst } }
    let stores : MemFx → Nat → List Nat → Dword → Prop := fun f size gs v => ∃ u, moved size u ∧
      f = { fx := { reads := gs, ptr := u }, access := some { store := true, addr := p.toNat, size := size, data := v } }
    let half := a.accu k.val h.val
    let accm := 7 * 1024 + k.val * 128 + h.val * 64 + hi.val * 32 + low
    (∀ slot ∈ [maSlot a e, mbSlot a e],
      slot 0 = {} ∧ (∀ w, 0 < w → w < 1024 → (slot w).fx.bad = true) ∧
      loads (slot (1024 + d.val * 32 + low)) 4 [a.phys d.val] [] (.g (a.phys d.val)) ∧
      stores (slot (2 * 1024 + d.val * 32 + low)) 4 [a.phys d.val] ((a.gr d.val).setWidth 64) ∧
      loads (slot (3 * 1024 + z.val * 32 + low)) 8 [a.phys (2 * z.val), a.phys (2 * z.val + 1)] []
        (.z (a.phys (2 * z.val)) (a.phys (2 * z.val + 1))) ∧
      stores (slot (4 * 1024 + z.val * 32 + low)) 8 [a.phys (2 * z.val), a.phys (2 * z.val + 1)]
        (a.gr (2 * z.val + 1) ++ a.gr (2 * z.val)) ∧
      (slot (3 * 1024 + 512 + z.val * 32 + low)).fx.bad = true ∧ (slot (4 * 1024 + 512 + z.val * 32 + low)).fx.bad = true) ∧
    loads (maSlot a e accm) 8 [] [2 * k.val + h.val] (.acc (2 * k.val + h.val) (decide (hi.val = 1))) ∧
    stores (maSlot a e (accm + 512)) 8 []
      (if hi.val = 1 then (half.extractLsb' 64 16).signExtend 64 else half.extractLsb' 0 64) ∧
    (∀ v : Dword, (∀ r, a.loaded (.g r) v = a.setGp r (v.extractLsb' 0 32)) ∧
      (∀ r q, a.loaded (.z r q) v = (a.setGp r (v.extractLsb' 0 32)).setGp q (v.extractLsb' 32 32)) ∧
      a.loaded (.acc (2 * k.val + h.val) false) v = a.setAcc (2 * k.val + h.val) (half.extractLsb' 64 16 ++ v) ∧
      a.loaded (.acc (2 * k.val + h.val) true) v =
        a.setAcc (2 * k.val + h.val) (v.extractLsb' 0 16 ++ half.extractLsb' 0 64)) ∧
    (∀ i, i < 32 → let f := maSlot a e (5 * 1024 + d.val * 32 + i)
      (e.pfrOk = true → f = { fx := { g := [(a.phys d.val, e.pfr i)] } }) ∧ (e.pfrOk = false → f.fx.bad = true)) ∧
    (let f := mbSlot a e (5 * 1024 + d.val * 32 + k.val * 8)
     (e.se = false → f = { fx := { reads := [a.phys d.val] }, send := some (k.val, a.gr d.val) }) ∧
     (e.se = true → f.fx.bad = true)) ∧
    (∀ w, 6 * 1024 ≤ w → w < 8 * 1024 → (mbSlot a e w).fx.bad = true) ∧
    (let f := maSlot a e (6 * 1024 + d.val * 32 + n.val * 4 + h.val * 2)
     let desc := a.gr (4 * n.val + 2)
     let phase : Dword := (a.gr (4 * n.val + 1) ++ a.gr (4 * n.val)) + ((a.gr (4 * n.val + 3)).setWidth 64 <<< 8)
     (d.val / 4 = n.val → f.fx.bad = true) ∧
     (d.val / 4 ≠ n.val → f.fx.bad = false ∧ f.access = none ∧ f.send = none ∧ f.fx.ptr = [] ∧
       f.claims = (if 2 ≤ fld desc 31 30 ∧ d.val % 2 = 0 then [a.phys d.val, a.phys (d.val + 1)] else [a.phys d.val]) ∧
       f.fx.g = (if h.val = 1 then [(a.phys (4 * n.val), phase.extractLsb' 0 32),
         (a.phys (4 * n.val + 1), phase.extractLsb' 32 32)] else []) ∧
       f.wf = some { d := d.val, fmt := fld desc 31 30, interp := bit desc 29, len := fld desc 28 24,
                     base := 4 * fld desc 23 0, i := (a.gr (4 * n.val + 1)).toNat, f := (a.gr (4 * n.val)).toNat }))) ∧
  (∀ (y : WaveFetch) (r raw0 raw1 : Nat),
    let size := if y.fmt = 0 then 2 else if y.fmt ≤ 2 then 4 else 8
    let sample : Nat → Int := fun v => if y.fmt = 0 then 65536 * (BitVec.ofNat 16 v).toInt else (BitVec.ofNat 32 v).toInt
    let lin : Int := ((sample raw1 - sample raw0) * y.f + 2 ^ 31) / 2 ^ 32
    y.addrs = (y.base + y.i % 2 ^ y.len * size) ::
      (if y.interp then [y.base + (y.i % 2 ^ y.len + 1) % 2 ^ y.len * size] else []) ∧
    (y.fmt < 2 → y.start [r] raw0 raw1 none =
      { reg := r, val := BitVec.ofInt 32 (sample raw0 + if y.interp then lin else 0) })) ∧
  (∀ (lanes : Tbl Lane) (r blk : Nat) (x : Word) (lane : Lane), lanes.find? (fun c => c.1 == r) = some (r, lane) →
    let v : Int := (x.toInt * lane.gain.toInt + 2 ^ 30) / 2 ^ 31
    (lanesAfter none blk lanes { send := some (r, x) } .none).find? (fun c => c.1 == r) = some (r, { lane with
      frames := lane.frames ++ [if 2147483647 < v then 0x7FFFFFFF else BitVec.ofInt 32 v] })) ∧
  -- F and the long instruction
  (∀ (a : Arch) (e : Env) (pc : Nat) (dl : Bool) (d : Fin 32) (cc : Fin 16) (g : Fin 2),
    let conds := [bit a.sr 0, !bit a.sr 0, bit a.sr 2, !bit a.sr 2, bit a.sr 1, !bit a.sr 1, bit a.sr 3, !bit a.sr 3,
      bit a.sr 2 && !bit a.sr 0, !bit a.sr 2 || bit a.sr 0, bit a.sr 1 == bit a.sr 3, bit a.sr 1 != bit a.sr 3,
      !bit a.sr 0 && bit a.sr 1 == bit a.sr 3, bit a.sr 0 || bit a.sr 1 != bit a.sr 3, true]
    let f : Nat → FlowFx := fSlot a pc dl
    let lng : Nat → FlowFx := fun w => longSlot a e pc dl w
    let jumps : FlowFx → List Nat → List (Nat × Word) → Option Int → Prop := fun x rs gs off =>
      (dl = true → x = { holds := true }) ∧
      (dl = false → ∃ dest, x = { fx := { reads := rs, g := gs }, flow := .branch dest, holds := true } ∧
        (dest.isSome = off.isSome) ∧ ∀ t o, dest = some t → off = some o → t < 4096 ∧ ((t : Int) - o) % 4096 = 0)
    let link := (15, BitVec.ofNat 32 (pc + 2))
    f 0 = {} ∧ f (64 + g.val) = { flow := .tend (decide (g.val = 1)) } ∧ f 128 = { flow := .yield } ∧
    f 192 = { flow := .window (some (a.wp + 1)) } ∧
    f 256 = { flow := .window (if a.wp = 0 then none else some (a.wp - 1)) } ∧
    (∀ w, w < 8 → f (320 + w) = { flow := .window (some w) }) ∧
    (a.tm = true → f 384 = { flow := .rte }) ∧ (a.tm = false → (f 384).fx.bad = true) ∧
    (bit a.sr 22 = true → f 448 = { flow := .rotb }) ∧ (bit a.sr 22 = false → (f 448).fx.bad = true) ∧
    (∀ off : Nat, off < 128 → (cc.val = 15 → (f (2048 + cc.val * 128 + off)).fx.bad = true) ∧
      ∀ c, conds[cc.val]? = some c → jumps (f (2048 + cc.val * 128 + off)) [] []
        (if c then some ((pc : Int) + if off < 64 then (off : Int) else (off : Int) - 128) else none)) ∧
    jumps (f (2 * 2048 + g.val * 1024 + d.val)) [a.phys d.val] (if g.val = 1 then [link] else [])
      (some (a.gr d.val).toNat) ∧
    f (3 * 2048 + d.val) = { fx := { g := [(a.phys d.val, a.srWord)] } } ∧
    (a.loops.length ≤ 4 → ∀ i, a.srWord.getLsbD i = if i = 23 then a.tm
      else if 19 ≤ i ∧ i ≤ 21 then a.loops.length.testBit (i - 19) else (decide (i ≤ 4 ∨ i = 6 ∨ i = 7 ∨ i = 22) && a.sr.getLsbD i)) ∧
    f (4 * 2048 + d.val) = { fx := { reads := [a.phys d.val] }, flow := .mtsr (a.gr d.val) } ∧
    (∀ i, i < 6 → let tr := [a.tpc, a.tnpc, a.tsr, a.twp, a.tcause, a.taddr]
      (a.tm = true → f (5 * 2048 + i * 128 + d.val) = { fx := { g := [(a.phys d.val, tr.getD i 0)] } } ∧
        f (5 * 2048 + 1024 + i * 128 + d.val) = { fx := { reads := [a.phys d.val] }, flow := .mttr i (a.gr d.val) }) ∧
      (a.tm = false → (f (5 * 2048 + g.val * 1024 + i * 128 + d.val)).fx.bad = true)) ∧
    (∀ w, 6 * 2048 ≤ w → w < 8 * 2048 → (f w).fx.bad = true) ∧
    -- long
    lng 0 = {} ∧
    (∀ off : Nat, off < 2 ^ 15 →
      let dest : Int := (pc : Int) + if off < 2 ^ 14 then (off : Int) else (off : Int) - 2 ^ 15
      (cc.val = 15 → (lng (2 ^ 19 + cc.val * 2 ^ 15 + off)).fx.bad = true) ∧
      (∀ c, conds[cc.val]? = some c → jumps (lng (2 ^ 19 + cc.val * 2 ^ 15 + off)) [] [] (if c then some dest else none)) ∧
      jumps (lng (2 * 2 ^ 19 + off)) [] [link] (some dest)) ∧
    (∀ n last, n < 2048 → last < 256 →
      let x := lng (3 * 2 ^ 19 + n * 2 ^ 8 + last)
      (dl = true → x = { holds := true }) ∧ (dl = false → n = 0 ∨ last = 0 → x.fx.bad = true) ∧
      (dl = false → n ≠ 0 → last ≠ 0 → x = { flow := .loop (pc + last) n, holds := true })) ∧
    (∀ last, last < 256 →
      let x := lng (4 * 2 ^ 19 + d.val * 2 ^ 14 + last)
      let n := (a.gr d.val).toNat
      (dl = true → x = { holds := true }) ∧ (dl = false → last = 0 → x.fx.bad = true) ∧
      let does : Flow := if n = 0 then .skip (pc + last + 1) else .loop (pc + last) n
      (dl = false → last ≠ 0 → x = { fx := { reads := [a.phys d.val] }, flow := does, holds := true })) ∧
    (∀ lane bus, lane < 4 → bus < 256 →
      let x := lng (5 * 2 ^ 19 + lane * 2 ^ 17 + bus * 2 ^ 9 + d.val * 2 ^ 4)
      (e.se = false → x = { fx := { reads := [a.phys d.val] }, flow := .scfg lane bus (a.gr d.val) }) ∧
      (e.se = true → x.fx.bad = true)) ∧
    (∀ w, 6 * 2 ^ 19 ≤ w → w < 2 ^ 24 → (lng w).fx.bad = true)) ∧
  -- the bundle
  (∀ (a : Arch) (e : Env) (lanes : Tbl Lane) (fs : List Fetch) (wp7 w : Nat) (p : Slots),
    let q := slotsOf a e w
    let t := a.after p wp7
    let u := a.writeSlots p
    let rcv := (a.pos.shadow.getD (bit a.sr 22))
    (a.pc < e.len → q.waits fs e.fifth = false → q.fault e lanes = none → haltOf a q.fl.flow = none →
      issue a e lanes fs wp7 w = .done (a.after (q.withSend lanes) wp7) q) ∧
    -- successors
    (∀ f, p.fl.flow = f → f ≠ .rte →
      let due := match a.loops with
        | [] => false
        | l :: _ => decide (l.last = a.pc) && (!a.tm || l.inTrap) && !p.fl.holds
      t.pos.delay = (match f with
        | .branch dest => some dest
        | _ => none) ∧ t.pos.forced = none ∧
      (∀ dest, a.pos.forced = none → a.pos.delay = some (some dest) → t.pc = dest) ∧
      (∀ dest l, a.pos.forced = some (dest, l) → t.pc = dest) ∧
      (a.pos.forced = none → (∀ dest, a.pos.delay ≠ some (some dest)) →
        (∀ dest, f = .skip dest → due = false → t.pc = dest) ∧
        ((∀ dest, f ≠ .skip dest) → due = false → t.pc = a.pc + 1) ∧
        (∀ l ls, a.loops = l :: ls → due = true → 1 < l.count → t.pc = l.start) ∧
        (∀ l ls, a.loops = l :: ls → due = true → l.count ≤ 1 →
          (∀ k ks, ls = k :: ks → k.last ≠ a.pc ∨ (a.tm = true ∧ k.inTrap = false)) → t.pc = a.pc + 1) ∧
        (∀ l k ks, a.loops = l :: k :: ks → due = true → l.count ≤ 1 → k.last = a.pc → a.tm = false → 1 < k.count →
          t.pc = k.start) ∧
        ((∀ n c, f ≠ .loop n c) →
          (due = false → t.loops = a.loops) ∧
          (∀ l ls, a.loops = l :: ls → due = true → 1 < l.count → t.loops = { l with count := l.count - 1 } :: ls) ∧
          (∀ l ls, a.loops = l :: ls → due = true → l.count ≤ 1 →
            (∀ k ks, ls = k :: ks → k.last ≠ a.pc ∨ (a.tm = true ∧ k.inTrap = false)) → t.loops = ls) ∧
          (∀ l k ks, a.loops = l :: k :: ks → due = true → l.count ≤ 1 → k.last = a.pc → a.tm = false → 1 < k.count →
            t.loops = { k with count := k.count - 1 } :: ks)) ∧
        (∀ last n, f = .loop last n → due = false →
          t.loops = { start := a.pc + 1, last := last, count := n, inTrap := a.tm } :: a.loops))) ∧
    -- windows, rotation and status
    (∀ f, p.fl.flow = f → f ≠ .rte →
      t.g = u.g ∧ t.win = u.win ∧ t.acc = u.acc ∧ t.ptr = u.ptr ∧ t.tm = a.tm ∧ t.sd = a.sd ∧ t.spillBase = a.spillBase ∧
      t.wp = (match f with
        | .window (some n) => if n < 7 then n else a.wp
        | _ => a.wp) ∧
      t.rrb = (if f = .rotb then (a.rrb + 1) % 16 else a.rrb) ∧
      (∀ i, i ≠ 22 → t.sr.getLsbD i = (match f with
        | .mtsr v => decide (i ≤ 4 ∨ i = 6 ∨ i = 7) && v.getLsbD i
        | _ => u.sr.getLsbD i)) ∧
      bit t.sr 22 = (match a.pos.shadow with
        | some x => x
        | none => bit u.sr 22) ∧
      t.pos.shadow = (match f with
        | .mtsr v => if bit v 22 = rcv then none else some (bit v 22)
        | _ => none) ∧
      (∀ i v, f = .mttr i v → i < 6 → [t.tpc, t.tnpc, t.tsr, t.twp, t.tcause, t.taddr] =
        [a.tpc, a.tnpc, a.tsr, a.twp, a.tcause, a.taddr].set i
          (v &&& [0xFFF, 0xFFF, 0x00F800DF, 7, 0xFF0000FF, 0xFFFFFFFF].getD i 0)) ∧
      ((∀ i v, f ≠ .mttr i v) → [t.tpc, t.tnpc, t.tsr, t.twp, t.tcause, t.taddr] =
        [a.tpc, a.tnpc, a.tsr, a.twp, a.tcause, a.taddr])) ∧
    -- return from trap
    (p.fl.flow = .rte → a.pos = {} → (∀ l ∈ a.loops, l.last ≠ a.pc ∨ l.inTrap = false) → a.tm = true →
      t.tm = false ∧ t.pc = a.tpc.toNat % 4096 ∧ t.sr = a.tsr &&& 0x004000DF ∧
      t.wp = (if fld a.twp 2 0 = 7 then wp7 else fld a.twp 2 0) ∧
      t.loops = a.loops.drop (a.loops.length - fld a.tsr 21 19) ∧
      t.pos = { delay := (if bit a.tcause 31 then some none else none),
                shadow := (if bit a.tcause 30 then some (bit a.tcause 29) else none),
                forced := some (a.tnpc.toNat % 4096, bit a.tcause 28) } ∧
      t.g = u.g ∧ t.win = u.win ∧ t.acc = u.acc ∧ t.ptr = u.ptr ∧ t.sd = a.sd))

/-- What completes on a core after its bundle (R191, R194, R227, R228, R236, R239, R243, R400, R418, R419). A wave fetch
writes its registers, the second word of an interpolation being read as it arrives (R362). Once no fetch is outstanding, the
spill engine stores window 0 and moves the others down, or brings it back; a fault enters the handler with the trap registers
saved, window 7 and the trap area, or, where the program has none, ends the task, and stops a Stage Engine's program. Where
the core awaits none of them, nothing happens (log entry 1). (The model's choices in it: log entries 4 and 29.) -/
def Obligations.CoreTraps : Prop :=
  ∀ (i : Fin 66) (k : Fin 4) (s : State) (r : TaskRun),
    let n := i.val
    let e := i.val - 64
    let veRuns := n < 64 ∧ (s.core n).run = some r
    let seRuns := 64 ≤ n ∧ (s.stg e).tr = some r
    let still : State → Prop := fun t => (∀ m, m ≠ n → t.core m = s.core m) ∧ (∀ f, 64 ≤ n → f ≠ e → t.stg f = s.stg f)
    let after : State → Arch → Prop := fun t a => still t ∧
      (n < 64 → ∃ u, (t.core n).run = some u ∧ u.arch = a ∧ u.pend = .none) ∧
      (64 ≤ n → ∃ u, (t.stg e).tr = some u ∧ u.arch = a ∧ u.pend = .none)
    let calm := r.fetches = [] ∧ (64 ≤ n → (s.stg e).stall = none)
    let area := if n < 64 then lmBase n + 64 * (r.arch.spillBase + r.arch.sd) else seBase e + 64 * r.arch.sd
    let below := if n < 64 then lmBase n + 64 * (r.arch.spillBase + (r.arch.sd - 1)) else seBase e + 64 * (r.arch.sd - 1)
    (s.engineRuns = false → exec (.waveFetchArrival i k) s = .next s ∧ exec (.windowOverflowTrap i) s = .next s ∧
      exec (.windowUnderflowTrap i) s = .next s ∧ exec (.trapEntry i) s = .next s ∧
      exec (.faultWithoutHandler i) s = .next s) ∧
    (s.engineRuns = true → veRuns ∨ seRuns →
      (∀ f, r.ended = none → r.fetches[k.val]? = some f → ∃ t f', exec (.waveFetchArrival i k) s = .next t ∧ still t ∧
        t = { s with csr := t.csr, wsAcc := t.wsAcc, draw := t.draw, cores := t.cores, stgs := t.stgs } ∧
        (f.second = none → f' = f ∧ t.csr = s.csr ∧ t.wsAcc = s.wsAcc ∧ t.draw = s.draw) ∧
        (∀ x, f.second = some x → f' = f.finish x (leNat (s.bytes x.addr (sampleBytes x.fmt)))) ∧
        (let u := { r with arch := r.arch.arrive f', fetches := r.fetches.eraseIdx k.val, fifth := r.fifth && decide (k.val ≠ 0) }
         (n < 64 → (t.core n).run = some u) ∧ (64 ≤ n → (t.stg e).tr = some u))) ∧
      (r.pend = .overflow → calm → ∃ t a, exec (.windowOverflowTrap i) s = .next t ∧ after t a ∧
        (∀ j, j < 16 → t.word (area + 4 * j) = tget 0 r.arch.win j) ∧
        (∀ b, b < area ∨ area + 64 ≤ b → t.byte b = s.byte b) ∧ a.sd = r.arch.sd + 1 ∧ a.wp = 6 ∧ a.g = r.arch.g ∧
        (∀ j, j < 96 → tget 0 a.win j = tget 0 r.arch.win (j + 16)) ∧
        (∀ j, 96 ≤ j → j < 112 → tget 0 a.win j = 0) ∧ (∀ j, 112 ≤ j → tget 0 a.win j = tget 0 r.arch.win j) ∧
        (n < 64 → (t.core n).bundles = (s.core n).bundles + 12)) ∧
      (r.pend = .underflow → calm → ∃ t a, exec (.windowUnderflowTrap i) s = .next t ∧ after t a ∧ t.mem = s.mem ∧
        a.sd = r.arch.sd - 1 ∧ a.wp = r.arch.wp ∧ a.g = r.arch.g ∧
        (∀ j, j < 16 → tget 0 a.win j = s.word (below + 4 * j)) ∧
        (∀ j, 16 ≤ j → j < 112 → tget 0 a.win j = tget 0 r.arch.win (j - 16)) ∧
        (∀ j, 112 ≤ j → tget 0 a.win j = tget 0 r.arch.win j) ∧
        (n < 64 → (t.core n).bundles = (s.core n).bundles + 12)) ∧
      (∀ tpc tnpc tc ta, r.pend = .fault tpc tnpc tc ta → calm →
        let trap := if n < 64 then (s.veEnv n r).trap else (s.stg e).trap
        (trap ≠ 0 → (64 ≤ n → (s.stg e).st.running = true) → ∃ t a, exec (.trapEntry i) s = .next t ∧ after t a ∧
          t.mem = s.mem ∧ a.pc = trap ∧ a.tm = true ∧ a.wp = 7 ∧ a.tpc = BitVec.ofNat 32 (tpc % 4096) ∧
          a.tnpc = BitVec.ofNat 32 (tnpc % 4096) ∧ a.tsr = r.arch.srWord ∧ a.twp = BitVec.ofNat 32 r.arch.wp ∧
          a.tcause = tc ∧ a.taddr = ta ∧ a.g = r.arch.g ∧ a.win = r.arch.win ∧ a.acc = r.arch.acc ∧
          a.loops = r.arch.loops.map (fun l => { l with inTrap := false }) ∧
          a.px 0 7 = BitVec.ofNat 32 ((if n < 64 then 0 else seBase e) + 0xC00) ∧ a.px 2 7 = 1024) ∧
        (trap ≠ 0 → exec (.faultWithoutHandler i) s = .next s) ∧ (trap = 0 → exec (.trapEntry i) s = .next s) ∧
        (trap = 0 → n < 64 → ∃ t, exec (.faultWithoutHandler i) s = .next t ∧ (t.core n).st = .idle ∧
          (t.core n).run = none ∧ (t.core n).saved = (s.core n).saved ∧ t.reg (Reg.VE_FAULTADDR n) = ta ∧
          t.rf (Reg.VE_FAULT n) 31 24 = fld tc 7 0 ∧ t.rf (Reg.VE_FAULT n) 15 0 = r.task.tag.toNat ∧
          t.rb Reg.SYS_DET 4 = true ∧
          (t.reg (Reg.VE_CNT n 0)).toNat = min ((s.reg (Reg.VE_CNT n 0)).toNat + 1) 0xFFFFFFFF) ∧
        (trap = 0 → 64 ≤ n → ∃ t, exec (.faultWithoutHandler i) s = .next t ∧ (t.stg e).st = .faulted ∧
          (t.stg e).tr = none ∧ t.reg (Reg.STG_FAULTADDR e) = ta ∧ t.rf (Reg.STG_FAULT e) 31 24 = fld tc 7 0 ∧
          t.rb (Reg.STG_STAT e) 0 = true ∧ t.mem = s.mem ∧ t.cores = s.cores ∧
          (t.reg (Reg.STG_CNT_FAULT e)).toNat = min ((s.reg (Reg.STG_CNT_FAULT e)).toNat + 1) 0xFFFFFFFF ∧
          (∀ m, t.holder m ≠ some (seReq e)) ∧
          (s.rb (Reg.STG_CTRL e) 6 = false ∨ s.rb (Reg.STG_CTRL e) 5 = true →
            (t.stg e).kernel = (s.stg e).kernel))) ∧
      ((∀ tpc tnpc tc ta, r.pend ≠ .fault tpc tnpc tc ta) ∨ r.fetches ≠ [] →
        exec (.trapEntry i) s = .next s ∧ exec (.faultWithoutHandler i) s = .next s) ∧
      (r.pend ≠ .overflow ∨ r.fetches ≠ [] → exec (.windowOverflowTrap i) s = .next s) ∧
      (r.pend ≠ .underflow ∨ r.fetches ≠ [] → exec (.windowUnderflowTrap i) s = .next s))

/-! ### Security -/

/-- The requests to SEC (R585, R586, R596, R599, R600 to R602): each one that is accepted has this effect and no
other. PROGMKH, SVNINC and DBGOFF start fuse programming, and DBGOFF closes every lock at once; a sealed delivery
makes SEC the owner of the bank; a quote is queued once; CHALGO places a fresh challenge, or none where the DRBG has
stopped; UNLOCK uses the challenge up, and its verdict stands behind those of earlier ones; CLOSE closes the lock. What is
programmed is what the write held; a body word of a quote under way is refused with cause 6. (The model's choices in it:
log entries 9 and 46.) -/
def Obligations.SecurityRequests : Prop :=
  ∀ (q : Req) (b : Fin 16) (i : Fin 4) (s : State),
    let x := s.sec
    let chal := fun (t : State) (l : List Byte) => ∀ w, w < 12 → t.reg (Reg.SEC_DBG_CHAL i.val w) = strWord l w
    (s.takes q Reg.SEC_FUSE_CTRL 0x4D4B0001 = true →
      exec (.progmkh q) s = .next { s with sec := { x with fuseOp := some { mkh := s.stagedMkh } }, resp := {} }) ∧
    (s.takes q Reg.SEC_FUSE_CTRL 0x4D4B0002 = true →
      exec (.svninc q) s = .next { s with sec := { x with fuseOp := some { svn := true } }, resp := {} }) ∧
    (s.takes q Reg.SEC_FUSE_CTRL 0x4D4B0004 = true →
      ∃ t, exec (.dbgoff q) s = .next t ∧
        t = { s with csr := t.csr, sec := { x with fuseOp := some { dbgoff := true } }, resp := {} } ∧
        t.reg Reg.SEC_STAT = s.reg Reg.SEC_STAT &&& 0xFF0FFFFF ∧ ∀ a, a ≠ Reg.SEC_STAT → t.reg a = s.reg a) ∧
    (s.takes q Reg.SEC_SEAL_REQ (0x80000000 ||| BitVec.ofNat 32 b.val) = true →
      ∃ t, exec (.sealRequest q b) s = .next t ∧
        t = { s with
          csr := t.csr, wsBusy := t.wsBusy, stgs := t.stgs, nvm := t.nvm, sec := { x with sealJob := some (b.val, q) }, resp := {} } ∧
        t.nvm = { s.nvm with op := s.nvm.op.map fun o => { o with moved := o.moved || decide (o.source = some b.val) } } ∧
        (∀ e, t.stg e = { s.stg e with moved := (t.stg e).moved }) ∧
        t.wsOwner b.val = 4 ∧ t.wsFrom b.val = 0 ∧ t.wsBusyBit b.val = true ∧ tget 0 t.wsBusy b.val = 1 ∧
        t.rf Reg.SEC_SEAL_ST 23 20 = b.val ∧ t.rf Reg.SEC_SEAL_ST 19 17 = userCode q ∧ t.rb Reg.SEC_SEAL_ST 0 = true ∧
        ∀ a, a ≠ Reg.WS_OWN b.val → a ≠ Reg.SEC_SEAL_ST → t.reg a = s.reg a) ∧
    (s.takes q (Reg.SEC_ATT_CTRL i.val) 1 = true → exec (.attestGo q i) s = .next
      (if x.quotes.contains i.val then { s with resp := {} }
       else { s.setReg (Reg.SEC_ATT_STAT i.val) (setFld (s.reg (Reg.SEC_ATT_STAT i.val)) 0 0 1) with
         sec := { x with quotes := x.quotes ++ [i.val] }, resp := {} })) ∧
    (s.takes q (Reg.SEC_DBG_CTRL i.val) 1 = true → ∃ t, exec (.chalgo q i) s = .next t ∧
      t = { s with csr := t.csr, sec := t.sec, resp := {} } ∧
      (x.drbgRuns = true → chal t (Config.drbg x.draws 48) ∧
        t.sec = { x with draws := x.draws + 1, chalOut := tput false x.chalOut i.val true }) ∧
      (x.drbgRuns = false → chal t [] ∧ t.sec = { x with chalOut := tput false x.chalOut i.val false })) ∧
    (s.takes q (Reg.SEC_DBG_CTRL i.val) 2 = true → ∃ t, exec (.unlock q i) s = .next t ∧
      t = { s with csr := t.csr, sec := t.sec, resp := {} } ∧ chal t [] ∧
      t.sec.chalOut = tput false x.chalOut i.val false ∧
      t.sec = { x with chalOut := t.sec.chalOut, unlocking := t.sec.unlocking } ∧
      t.sec.unlocking = tput [] x.unlocking i.val (tget [] x.unlocking i.val ++ [s.unlockVerdict i.val]) ∧
      t.reg Reg.SEC_STAT = s.reg Reg.SEC_STAT) ∧
    (s.takes q (Reg.SEC_DBG_CTRL i.val) 4 = true → exec (.debugClose q i) s = .next
      { s.setReg Reg.SEC_STAT (setFld (s.reg Reg.SEC_STAT) (20 + i.val) (20 + i.val) 0) with resp := {} }) ∧
    (∀ (w : Fin 54) (v : Word), x.quotes.contains i.val = true → Req.ix q = i.val →
      s.refusal q (Reg.SEC_ATT_BODY i.val w.val) v = 6)

/-- What SEC ends (R583 to R586, R588, R597 to R600, R602, R603). Fuses only change from 0 to 1: MKH as the write held it
and its check code, the next bit of the security version, and DBGOFF, each where the write asked for it; a loss of the
supply burns a part of them and no other (R585). A delivery seals the decrypted content in the bank, the rest of
it zero, or clears the bank, and hands it back. The oldest quote is signed, or fails with code 0x06. A lock opens on a
good verdict only, and never while content is sealed or being delivered; each UNLOCK has its own end. A failed health test
stops the DRBG. Where nothing is under way, nothing happens (log entry 1). (The model's choices in it: log entries 4, 9,
15 and 46.) -/
def Obligations.SecurityEnds : Prop :=
  ∀ (i : Fin 4) (s : State),
    let x := s.sec
    (x.fuseOp = none → exec .fuseProgramDone s = .next s) ∧
    (∀ op, x.fuseOp = some op → ∃ t, exec .fuseProgramDone s = .next t ∧ t = { s with csr := t.csr, sec := t.sec } ∧
      t.sec = { x with fuses := t.sec.fuses, fuseOp := none } ∧
      (∀ n, x.fuses.getLsbD n = true → t.sec.fuses.getLsbD n = true) ∧
      t.sec.fuses = x.fuses |||
        (if op.mkh = [] then 0 else BitVec.ofNat 512 (leNat op.mkh * 2 ^ 64) ||| BitVec.ofNat 512 (crc16 op.mkh * 2 ^ 48)) |||
        (if op.svn then BitVec.ofNat 512 (2 ^ (16 + s.secVersion)) else 0) |||
        (if op.dbgoff then BitVec.ofNat 512 (2 ^ 15) else 0) ∧
      (op.svn = true → s.secVersion < 32 → s.secVersion < t.secVersion) ∧
      (op.dbgoff = true → t.dbgoffFuse = true ∧ ∀ k, k < 4 → t.rb Reg.SEC_STAT (20 + k) = false) ∧
      (op.dbgoff = false → t.csr = s.csr) ∧
      (let l := s.fuseLost
       l = { s with draw := l.draw, sec := { x with fuses := l.sec.fuses, fuseOp := none } } ∧
         (∀ n, x.fuses.getLsbD n = true → l.sec.fuses.getLsbD n = true) ∧
         (∀ n, l.sec.fuses.getLsbD n = true → t.sec.fuses.getLsbD n = true) ∧
         (op.mkh ≠ [] → op.svn = false → s.life = .opened → l.life ≠ .secured) ∧
         (op.mkh ≠ [] → op.svn = false → (∃ n, 48 ≤ n ∧ n < 64 ∧ l.sec.fuses.getLsbD n ≠ x.fuses.getLsbD n) →
           ∀ n, 64 ≤ n → n < 288 → (BitVec.ofNat 512 (leNat op.mkh * 2 ^ 64)).getLsbD n = true →
             l.sec.fuses.getLsbD n = true))) ∧
    (s.stalled = [] → x.sealJob = none → exec .sealDeliveryDone s = .next s) ∧
    (∀ (j : Fin 16) (q : Req), s.stalled = [] → x.sealJob = some (j.val, q) → let b := j.val; ∃ t, exec .sealDeliveryDone s = .next t ∧
      t = { s with
        csr := t.csr, ports := t.ports, mem := t.mem, wsBusy := t.wsBusy, wsAcc := t.wsAcc, draw := t.draw, stgs := t.stgs
        nvm := t.nvm, sec := { x with sealJob := none } } ∧
      t.nvm = { s.nvm with op := s.nvm.op.map fun o => { o with moved := o.moved || decide (o.source = some b) } } ∧
      (∀ e, t.stg e = { s.stg e with moved := (t.stg e).moved, tr := (t.stg e).tr } ∧
        ((t.stg e).tr.map fun r => { r with fetches := [] }) = (s.stg e).tr.map fun r => { r with fetches := [] }) ∧
      t.wsBusyBit b = (s.wsBusyBit b && decide (tget 0 s.wsBusy b ≠ 1)) ∧
      t.wsOwner b = Req.agent q ∧ t.rb Reg.SEC_SEAL_ST 0 = false ∧
      (∀ a, a < b * 0x400000 ∨ (b + 1) * 0x400000 ≤ a → t.byte a = s.byte a) ∧
      (∀ p, s.sealOpen b = .ok p → t.wsSealed b = true ∧ t.rf Reg.SEC_SEAL_ST 31 24 = 0 ∧ t.rb Reg.SEC_STAT 5 = true ∧
        ∀ k, k < 0x400000 → t.byte (b * 0x400000 + k) = if 0x400 ≤ k then p.getD (k - 0x400) 0 else 0) ∧
      (∀ c, s.sealOpen b = .error c → t.wsSealed b = s.wsSealed b ∧ t.rf Reg.SEC_SEAL_ST 31 24 = c % 256 ∧
        t.rb Reg.SEC_STAT 6 = true ∧
        (t.reg (Reg.SEC_CNT 1)).toNat = min ((s.reg (Reg.SEC_CNT 1)).toNat + 1) 0xFFFFFFFF ∧
        ∀ k, k < 0x400000 → t.byte (b * 0x400000 + k) = 0)) ∧
    (x.quotes = [] → exec .quoteDone s = .next s) ∧
    (∀ l, x.quotes = i.val :: l → ∃ t, exec .quoteDone s = .next t ∧ t = { s with csr := t.csr, sec := t.sec } ∧
      t.sec.quotes = l ∧
      (∀ r, x.ident = some r → x.drbgRuns = true →
        let body := s.getWords (Reg.SEC_ATT_BODY i.val) 12 ++ s.quoteBody i.val
        t.sec.draws = x.draws + 1 ∧ t.reg (Reg.SEC_ATT_STAT i.val) = 0 ∧
          (∀ w, w < 54 → t.reg (Reg.SEC_ATT_BODY i.val w) = strWord body w) ∧
          ∀ w, w < 24 → t.reg (Reg.SEC_ATT_SIG i.val w) =
            strWord (ecdsaSign (Config.identityPrivate r) (sha384 body) (Config.nonce x.draws)) w) ∧
      (x.ident = none ∨ x.drbgRuns = false → t.sec.draws = x.draws ∧ t.rf (Reg.SEC_ATT_STAT i.val) 31 24 = 6 ∧
        ∀ w, w < 24 → t.reg (Reg.SEC_ATT_SIG i.val w) = 0)) ∧
    (tget [] x.unlocking i.val = [] → exec (.unlockDone i) s = .next s) ∧
    (∀ v rest, tget [] x.unlocking i.val = v :: rest → v ≤ 3 →
      let held := (List.range 16).any s.wsSealed || x.sealJob.isSome
      let never := s.dbgoffFuse && (decide (s.life = .secured) || decide (s.life = .fuseerr))
      ∃ t, exec (.unlockDone i) s = .next t ∧ t = { s with csr := t.csr, ports := t.ports, sec := t.sec } ∧
        t.sec = { x with unlocking := tput [] x.unlocking i.val rest } ∧
        (v = 0 → held = false → never = false → t.rb Reg.SEC_STAT (20 + i.val) = true ∧ t.rb Reg.SEC_STAT 3 = true ∧
          t.rf (Reg.SEC_DBG_CTRL i.val) 31 24 = 0) ∧
        (v ≠ 0 ∨ held = true ∨ never = true → t.rb Reg.SEC_STAT (20 + i.val) = s.rb Reg.SEC_STAT (20 + i.val) ∧
          t.rb Reg.SEC_STAT 4 = true ∧ t.rf (Reg.SEC_DBG_CTRL i.val) 31 24 =
            (if v = 3 ∨ never = true then 3 else if held = true then 2 else v) ∧
          (t.reg (Reg.SEC_CNT 0)).toNat = min ((s.reg (Reg.SEC_CNT 0)).toNat + 1) 0xFFFFFFFF)) ∧
    (s.awake = true ∨ s.phase = .waitRecords → ∃ t, exec .entropyFail s = .next t ∧
      t = { s with csr := t.csr, ports := t.ports, sec := { x with drbgRuns := false } } ∧
      t.reg Reg.SEC_STAT = s.reg Reg.SEC_STAT ||| 0x80) ∧
    (s.awake = false → s.phase ≠ .waitRecords → exec .entropyFail s = .next s)

/-! ### Power -/

/-- Consent and the power states (R608 to R616). A requester sets or clears its own bits of PWR_REQ, and a voter that
clears its SLEEP bit ends SLEEP. With the engine idle, consent to OFF starts the commit before OFF, and else consent
to SLEEP enters SLEEP; a wake cause of a waiting Stage Engine, or WAKE_N, ends it and clears the SLEEP bits. After the
commit the device is OFF, where every register is at Power-on and only non-volatile memory and fuses survive; power-on
or WAKE_N ends OFF. A power failure is OFF at once. Where the condition of a transition does not hold, nothing happens (log
entry 1). (The model's choices in it: log entries 4, 26 and 28.) -/
def Obligations.PowerStates : Prop :=
  ∀ (q : Req) (v : Word) (s : State),
    let awakened : State := { s.setReg Reg.PWR_REQ (setFld (s.reg Reg.PWR_REQ) 3 0 0) with phase := .run }
    let isOff : State → Prop := fun t => t.phase = .off ∧ (∀ a, t.reg a = powerOnWord s.variant a) ∧
      (∀ a, a < nvmBase → t.byte a = 0) ∧ t.psuEn = false ∧ t.pending = s.pending ∧ t.now = none ∧ t.mck.st = .off ∧
      (∀ n, (t.core n).run = none) ∧ (∀ n, t.holder n = none) ∧
      ∀ n, s.sec.fuses.getLsbD n = true → t.sec.fuses.getLsbD n = true
    let out := fun w : Nat => ({ s.setReg Reg.PWR_STAT (setFld (s.reg Reg.PWR_STAT) 22 21 w) with
      phase := .waitPgood, psuEn := true } : State)
    let commit : NvmOp := { op := 3, rid := 7, req := none, result := 0, thenOff := true,
                            data := s.retainedSet (if s.rf Reg.PWR_STAT 28 26 = 4 then 2 else 1) }
    (s.takes q Reg.PWR_REQSET v = true →
      exec (.pwrReqset q v) s = .next { s.setReg Reg.PWR_REQ (s.reg Reg.PWR_REQ ||| v) with resp := {} }) ∧
    (s.takes q Reg.PWR_REQCLR v = true →
      let w := s.reg Reg.PWR_REQ &&& ~~~ v
      let ends := s.voter (Req.ix q) && bit v (Req.ix q) && decide (s.phase = .sleep)
      ∃ t, exec (.pwrReqclr q v) s = .next t ∧ t = { s with csr := t.csr, phase := t.phase, resp := {} } ∧
        t.phase = (if ends then .run else s.phase) ∧ t.reg Reg.PWR_REQ = (if ends then setFld w 3 0 0 else w) ∧
        ∀ a, a ≠ Reg.PWR_REQ → t.reg a = s.reg a) ∧
    ((s.phase ≠ .run ∧ s.phase ≠ .sleep) ∨ s.engineIdle = false → exec .powerStateEntry s = .next s) ∧
    (s.engineIdle = true → s.phase = .run ∨ s.phase = .sleep →
      (s.consent 4 = true → s.nvm.op = none → ∃ t, exec .powerStateEntry s = .next t ∧
        (∃ r, recordOf 7 = some r ∧
          let slot := s.slotToWrite 7 r
          let res := if s.nextSeq 7 r = 2 ^ 48 then 4 else 0
          t = { s with csr := t.csr, mem := t.mem, phase := .commit, nvm := { s.nvm with
            op := some { commit with result := res, slot := slot, seq := s.nextSeq 7 r } } } ∧
          (res = 4 → t.mem = s.mem) ∧
          ∀ a, a < nvmBase + slot ∨ nvmBase + slot + 16 ≤ a → t.byte a = s.byte a) ∧
        ∀ a, a ≠ Reg.NVM_STAT → t.reg a = s.reg a) ∧
      (s.consent 4 = false → s.consent 0 = true → s.phase = .run → exec .powerStateEntry s =
        .next { s.count (Reg.PWR_CNT 3) with phase := .sleep, pending := s.pending }) ∧
      (s.consent 4 = false → s.consent 0 = false ∨ s.phase = .sleep → exec .powerStateEntry s = .next s)) ∧
    (s.phase = .sleep → s.wakeCause = true → exec .sleepExit s = .next awakened) ∧
    (s.phase ≠ .sleep ∨ s.wakeCause = false → exec .sleepExit s = .next s) ∧
    (s.phase = .commit → s.nvm.op = none → ∃ t, exec .offEntry s = .next t ∧ isOff t ∧
      (s.sec.fuseOp = none → t.sec.fuses = s.sec.fuses) ∧ ∀ a, nvmBase ≤ a → t.byte a = s.byte a) ∧
    (s.phase ≠ .commit ∨ s.nvm.op.isSome = true → exec .offEntry s = .next s) ∧
    (s.phase = .off → exec .powerOn s = .next (out 1) ∧ exec .wakeNAssert s = .next (out 2) ∧
      exec .powerFail s = .next s) ∧
    (s.phase ≠ .off → exec .powerOn s = .next s ∧ (s.phase ≠ .sleep → exec .wakeNAssert s = .next s) ∧
      (s.phase = .sleep → exec .wakeNAssert s = .next awakened) ∧
      ∃ t, exec .powerFail s = .next t ∧ isOff t ∧ (s.sec.fuseOp = none → t.sec.fuses = s.sec.fuses) ∧
        (s.nvm.op = none → ∀ a, nvmBase ≤ a → t.byte a = s.byte a))

/-- Start-up and the sag level (R356, R593, R617, R618, R620, R621, R623, R626, R632, R642, R644, R662). Each step runs in its
own phase and nowhere else: PGOOD starts the crystal, or its absence returns to OFF; the crystal starts the check of the
records, the clear, SEC, and the sections that sample DAC_CLR_N (R450); the records give NCL_NOW and release the ports; SEC's
release puts the self-test on every enabled core and the others out of service; its end loads the calibration constants and,
once the measurement has ended too, sets MCK_CTRL.EN. A rise of the sag level counts each level entered, sets SHED and vector
20; before READY level 4 is OFF, and after it level 4 stops an operation on non-volatile memory; level 4 is never left.
Outputs are unpowered in OFF and high-impedance until step 4. Where the condition of a step does not hold, nothing happens
(log entry 1). (The model's choices in it: log entries 4, 7, 27 and 28.) -/
def Obligations.StartUpAndSag : Prop :=
  ∀ (failed : BitVec 64) (l : Fin 5) (s : State),
    (s.phase = .waitPgood → exec .pgoodHigh s = .next { s with phase := .waitCrystal } ∧
      ∃ t, exec .pgoodTimeout s = .next t ∧ t.phase = .off ∧ t.psuEn = false ∧ t.sec.fuses = s.sec.fuses ∧
        (∀ a, t.reg a = powerOnWord s.variant a) ∧ ∀ a, t.byte a = if nvmBase ≤ a then s.byte a else 0) ∧
    (s.phase ≠ .waitPgood → exec .pgoodHigh s = .next s ∧ exec .pgoodTimeout s = .next s) ∧
    (s.phase = .waitCrystal → ∃ t, exec .crystalStable s = .next t ∧ t.phase = .waitRecords ∧
      t.rb Reg.WS_STAT 16 = true ∧ t.sec.booted = true ∧ t.sec.drbgRuns = true ∧
      t.clrSeen = (match s.variant with
        | .c => s.clrSeen
        | .f => s.clrPin) ∧
      (s.variant = .c ∨ s.clrPin = s.clrSeen →
        ∀ a, a ≠ Reg.WS_STAT → a ≠ Reg.NVM_STAT → a ≠ Reg.NVM_CNT 2 → t.reg a = s.reg a) ∧
      (s.variant = .f → s.clrPin = false → s.clrSeen = true → t.rb Reg.DAC_STAT 3 = true ∧
        (t.reg (Reg.DAC_CNT 3)).toNat = min ((s.reg (Reg.DAC_CNT 3)).toNat + 1) 0xFFFFFFFF) ∧
      (∀ a, a < nvmBase → t.byte a = s.byte a) ∧
      (∀ rid ∈ allRids, ∀ r, recordOf rid = some r → s.slotTorn rid r r.slotA = true ∨ s.slotTorn rid r r.slotB = true →
        t.rb Reg.NVM_STAT 6 = true) ∧
      (∀ r, s.record 2 = some r → t.mem = s.mem ∧ t.sec.ident = if s.unwraps r then some r else none) ∧
      (s.record 2 = none → s.life = .factory → t.sec.ident = some (identityMade s.sec.draws) ∧
        t.sec.draws = s.sec.draws + 1) ∧
      (s.record 2 = none → s.life ≠ .factory → t.mem = s.mem ∧ t.sec.ident = none)) ∧
    (s.phase ≠ .waitCrystal → exec .crystalStable s = .next s) ∧
    (s.phase = .waitRecords → ∃ t, exec .recordsRead s = .next t ∧ t.phase = .waitSec ∧ t.mem = s.mem ∧
      (∀ p, p < 2 → (t.port p).released = true) ∧ t.rf Reg.PWR_OPP 7 4 = t.rf Reg.PWR_OPP 3 0 ∧
      t.rb Reg.NVM_STAT 7 = s.validRset.isNone) ∧
    (s.phase ≠ .waitRecords → exec .recordsRead s = .next s) ∧
    (s.phase = .waitSec → s.sec.booted = true → ∃ t, exec .secRelease s = .next t ∧ t.phase = .selfTest ∧
      t.age.startup = true ∧ (s.age.settling = false → s.age.awaits = false → t.age.measuring = true) ∧
      (∀ n, n < 64 → n / 8 < s.nclNow →
        (t.core n).kernel = some 2 ∧ (t.core n).st = .run ∧ (t.core n).oos = false) ∧
      (∀ n, n < 64 → s.nclNow ≤ n / 8 → (t.core n).st = .off ∧ (t.core n).oos = true) ∧
      ∀ e, e < 2 → (s.record (8 + e) = none → (t.stg e).st = (s.stg e).st) ∧
        ((s.record (8 + e)).isSome = true → (s.stg e).oos = false → (t.stg e).st = .loading)) ∧
    (s.phase ≠ .waitSec ∨ s.sec.booted = false → exec .secRelease s = .next s) ∧
    (s.selfTesting = true → ∃ t, exec (.selfTestDone failed) s = .next t ∧
        (s.age.measuring = false → s.age.settling = false → s.age.awaits = false →
          t.phase = .waitStrobe ∧ t.rb Reg.MCK_CTRL 0 = true) ∧
        (s.age.awaits = false → s.age.measuring = true ∨ s.age.settling = true → t.phase = .selfTest) ∧
        (s.age.awaits = true → (t.phase = .selfTest ∧ t.age.settling = true) ∨
          (t.phase = .waitStrobe ∧ t.rb Reg.MCK_CTRL 0 = true)) ∧ t.age.awaits = false ∧
        t.age.fcal = (s.record 1).getD [] ∧
        (∀ n, n < 64 → (s.core n).kernel = some 2 → (t.core n).kernel = none ∧
          (failed.getLsbD n = true → (t.core n).st = .off ∧ (t.core n).oos = true) ∧
          (failed.getLsbD n = false → (t.core n).st = .idle)) ∧ t.mem = s.mem) ∧
    (s.selfTesting = false → exec (.selfTestDone failed) s = .next s) ∧
    (∀ p, s.drive p = match s.phase, p with
      | .off, .psuEn => .low
      | .off, _ => .unpowered
      | _, .psuEn => if s.psuEn then .high else .low
      | .waitPgood, _ => .highZ
      | _, .xtalOut => .runs
      | .waitCrystal, _ => .highZ
      | _, .avs => .runs
      | .waitRecords, .other => .highZ
      | _, .other => .registers) ∧
    (s.sagMonitor = false ∨ l.val ≤ s.sagLevel → exec (.sagLevelRise l) s = .next s) ∧
    (s.sagMonitor = false ∨ s.sagLevel ≤ l.val ∨ s.sagLevel = 4 → exec (.sagLevelFall l) s = .next s) ∧
    (s.sagMonitor = true → s.sagLevel < l.val → l.val = 4 → s.ready = false →
      ∃ t, exec (.sagLevelRise l) s = .next t ∧ t.phase = .off ∧ t.psuEn = false) ∧
    (s.sagMonitor = true → s.sagLevel < l.val → l.val ≠ 4 ∨ s.ready = true →
      ∃ t, exec (.sagLevelRise l) s = .next t ∧
        t = { s with csr := t.csr, ports := t.ports, mem := t.mem, nvm := t.nvm, draw := t.draw } ∧
        (l.val ≠ 4 ∨ s.nvm.op = none → t.mem = s.mem ∧ t.nvm = s.nvm ∧ t.draw = s.draw) ∧
        (∀ o, l.val = 4 → s.nvm.op = some o →
          (o.op ≠ 3 → t.nvm.op = none) ∧ (o.op = 3 → o.thenOff = false → t.nvm = s.nvm ∧ t.mem = s.mem)) ∧
        (∀ a, a < nvmBase → t.byte a = s.byte a) ∧ t.sagLevel = l.val ∧
        t.rf Reg.PWR_STAT 25 23 = max (s.rf Reg.PWR_STAT 25 23) l.val ∧ t.rb Reg.SYS_DET 7 = true ∧
        t.rb (Reg.HPx_IRQ_STAT 0) 20 = true ∧ t.rb (Reg.HPx_IRQ_STAT 1) 20 = true ∧
        ∀ n, n < 3 → (t.reg (Reg.PWR_CNT n)).toNat =
          min ((s.reg (Reg.PWR_CNT n)).toNat + (if s.sagLevel ≤ n ∧ n < l.val then 1 else 0)) 0xFFFFFFFF) ∧
    (s.sagMonitor = true → l.val < s.sagLevel → s.sagLevel ≠ 4 →
      ∃ t, exec (.sagLevelFall l) s = .next t ∧ t = { s with csr := t.csr, ports := t.ports } ∧ t.sagLevel = l.val ∧
        t.rb (Reg.HPx_IRQ_STAT 0) 20 = true ∧ t.rb (Reg.HPx_IRQ_STAT 1) 20 = true ∧
        ∀ n, n < 4 → t.reg (Reg.PWR_CNT n) = s.reg (Reg.PWR_CNT n))

/-! ### Non-volatile memory and ageing -/

/-- Operations on non-volatile memory (R631, R634 to R637, R641, R650). An accepted WRITE or ERASE is judged at once, REQ
names its requester, and a WRITE that passes copies its data; COMMIT takes its snapshot at once. No byte of other memory
changes. A written record goes to the slot, and takes the SEQ, that it was marked with. At its end an operation reports its
result, sets DONE or ERR and vector 23, and counts; one that was rejected, or whose source bank changed hands, changes no
byte; a written record is the one in force, and an erased one is no longer valid. A write of the ageing history that waited
begins then. With no operation under way nothing happens (log entry 1). (The model's choices in it: log entries 4, 26 and 27.)
-/
def Obligations.NvmOperations : Prop :=
  ∀ (q : Req) (rid : BitVec 8) (s : State),
    let began := fun (t : State) (o : NvmOp) =>
      t = { s with csr := t.csr, mem := t.mem, nvm := t.nvm, wsAcc := t.wsAcc, draw := t.draw, resp := {} } ∧
      t.nvm = { s.nvm with op := some o } ∧ t.rf Reg.NVM_STAT 23 21 = userCode q ∧
      (∀ a, a ≠ Reg.NVM_STAT → (∀ b, b < 16 → a ≠ Reg.WS_CNT_ACC b ∧ a ≠ Reg.WS_CNT_COLL b ∧ a ≠ Reg.WS_WAIT b ∧
          a ≠ Reg.WS_CNT_REFUSED b) →
        t.reg a = s.reg a) ∧ (∀ a, a < nvmBase → t.byte a = s.byte a) ∧
      o.req = some q ∧ o.thenOff = false ∧ o.moved = false
    let alone := fun (t : State) => t.wsAcc = s.wsAcc ∧ t.draw = s.draw ∧ ∀ a, a ≠ Reg.NVM_STAT → t.reg a = s.reg a
    (∀ r, recordOf rid.toNat = some r → s.takes q Reg.NVM_CMD (0x10000000 ||| rid.setWidth 32) = true →
      let src := s.rf (Reg.NVM_SRC (Req.ix q)) 25 0
      let len := s.rf (Reg.NVM_LEN (Req.ix q)) 16 0
      let mine := decide (s.wsOwner (bankOf src) = Req.agent q) && !s.wsSealed (bankOf src)
      ∃ t o, exec (.nvmWrite q rid) s = .next t ∧ began t o ∧ o.op = 1 ∧ o.rid = rid.toNat ∧
        o.data = s.copySource (Req.agent q) false src (min len r.capacity) ∧
        (s.recordRights q rid.toNat false = false → o.result = 1) ∧
        (s.recordRights q rid.toNat false = true → mine = false → o.result = 2) ∧
        (s.recordRights q rid.toNat false = true → mine = true → lengthOk rid.toNat len r = false → o.result = 3) ∧
        o.source = some (bankOf src) ∧ o.slot = s.slotToWrite rid.toNat r ∧ o.seq = s.nextSeq rid.toNat r ∧
        (o.result ≠ 0 → t.mem = s.mem) ∧ (o.result ≠ 0 → o.result ≠ 5 → alone t)) ∧
    (s.takes q Reg.NVM_CMD (0x20000000 ||| rid.setWidth 32) = true →
      ∃ t o, exec (.nvmErase q rid) s = .next t ∧ began t o ∧ alone t ∧ t.mem = s.mem ∧ o.op = 2 ∧ o.rid = rid.toNat ∧
        o.result = (if s.recordRights q rid.toNat true = true then 0 else 1)) ∧
    (s.takes q Reg.NVM_CMD 0x30000000 = true →
      ∃ t o, exec (.nvmCommit q) s = .next t ∧ began t o ∧ alone t ∧ o.op = 3 ∧ o.rid = 7 ∧
        (∀ r, recordOf 7 = some r → o.slot = s.slotToWrite 7 r ∧ o.seq = s.nextSeq 7 r ∧
          o.result = if s.nextSeq 7 r = 2 ^ 48 then 4 else 0) ∧ (o.result = 4 → t.mem = s.mem) ∧
        o.data = s.retainedSet 0) ∧
    (s.nvm.op = none → exec .nvmOpDone s = .next s) ∧
    (∀ o e l, s.nvm.op = some o → s.nvm.agehDue = e :: l → s.phase ≠ .commit → ∃ t u, exec .nvmOpDone s = .next t ∧
      t.nvm = { op := some u, agehDue := l } ∧ u.op = 1 ∧ u.rid = 6 ∧ u.req = none) ∧
    (∀ o, s.nvm.op = some o → s.nvm.agehDue = [] → s.phase ≠ .commit →
      let res := (s.nvmEffect o).2
      ∃ t, exec .nvmOpDone s = .next t ∧ t = { s with csr := t.csr, mem := t.mem, ports := t.ports, nvm := t.nvm } ∧
        t.nvm = { s.nvm with op := none } ∧ t.rf Reg.NVM_STAT 31 24 = res % 256 ∧
        (o.result ≠ 0 → res = o.result ∧ t.mem = s.mem) ∧
        (o.result = 0 → o.moved = true → res = 2 ∧ t.mem = s.mem) ∧
        (o.result = 0 → o.moved = false → o.op ≠ 2 → ∀ r, recordOf o.rid = some r → (res = 0 ∨ res = 6) ∧
          (res = 0 ↔ t.slotValid o.rid r o.slot = true) ∧
          (res = 0 → o.data.length ≤ r.capacity → o.seq < 2 ^ 48 → o.owner < 4 →
            (∃ other, (o.slot = r.slotA ∧ other = r.slotB ∨ o.slot = r.slotB ∧ other = r.slotA) ∧
              (s.slotValid o.rid r other = true → s.slotSeq other < o.seq)) → t.record o.rid = some o.data)) ∧
        (∀ a, a < nvmBase → t.byte a = s.byte a) ∧
        (o.rid = 6 → o.op = 1 → res = 0 →
          t.reg Reg.AGE_DRIFT = BitVec.ofNat 32 (driftOf (agehEntries o.data))) ∧
        (res = 0 → t.rb Reg.NVM_STAT 4 = true ∧
          (t.reg (Reg.NVM_CNT 0)).toNat = min ((s.reg (Reg.NVM_CNT 0)).toNat + 1) 0xFFFFFFFF) ∧
        (res ≠ 0 → t.rb Reg.NVM_STAT 5 = true ∧
          (t.reg (Reg.NVM_CNT 1)).toNat = min ((s.reg (Reg.NVM_CNT 1)).toNat + 1) 0xFFFFFFFF) ∧
        t.rb (Reg.HPx_IRQ_STAT 0) 23 = true ∧ t.rb (Reg.HPx_IRQ_STAT 1) 23 = true ∧
        (o.op = 2 → o.result = 0 → o.moved = false → t.record o.rid = none))

/-- The planner (R645 to R649, R658): a measurement starts on MEAS, or every ten minutes of RUN, unless one is under way; at
its end VSET steps up by one, is sent, settles and is measured again, or the plan is reported, and after start-up R_plan
never rises; at start-up the plan waits for the calibration kernels. The history's entry is written when non-volatile
memory is free and waits for it otherwise. Where nothing is under way, nothing happens (log entry 1). (The model's choices
in it: log entries 4, 26 and 27.) -/
def Obligations.AgeingPlanner : Prop :=
  ∀ (q : Req) (v w : Word) (s : State),
    let x := s.age
    let busy := x.measuring || x.settling || x.awaits
    (w = v ||| 0x80000000 → s.takes q Reg.AGE_CTRL w = true → ∃ t, exec (.ageMeas q v) s = .next t ∧
      t = { s with csr := t.csr, age := t.age, resp := {} } ∧ (∀ a, a ≠ Reg.AGE_CTRL → t.reg a = s.reg a) ∧
      t.rf Reg.AGE_CTRL 23 16 = fld w 23 16 ∧ t.rf Reg.AGE_CTRL 15 8 = fld w 15 8 ∧ t.rf Reg.AGE_CTRL 3 0 = fld w 3 0 ∧
      t.age = if busy then x else { x with measuring := true }) ∧
    exec .agePeriodicMeasure s =
      .next (if decide (s.phase = .run) && !busy then { s with age := { x with measuring := true } } else s) ∧
    (x.measuring = false → s.phase ≠ .selfTest → exec .ageMeasureDone s = .next s) ∧
    (x.measuring = true → s.selfTesting = true →
      exec .ageMeasureDone s = .next { s with age := { x with measuring := false, awaits := true } }) ∧
    (x.measuring = true → s.phase = .selfTest → s.selfTesting = false → ∃ t, exec .ageMeasureDone s = .next t ∧
      (s.ageRead.needsMore = true → t.phase = .selfTest ∧ t.age.settling = true) ∧
      (s.ageRead.needsMore = false → t.phase = .waitStrobe ∧ t.rb Reg.MCK_CTRL 0 = true ∧ t.age.startup = false)) ∧
    (x.measuring = true → s.phase ≠ .selfTest → ∃ t, exec .ageMeasureDone s = .next t ∧
      t = { s with csr := t.csr, ports := t.ports, age := t.age, draw := t.draw } ∧ t.age.measuring = false ∧
      (s.ageRead.needsMore = true → t.vset = s.ageRead.vset + 1 ∧ t.rb Reg.AGE_STAT 2 = true ∧
        t.age = { x with measuring := false, settling := true, raises := x.raises + 1, sent := x.sent ++ [s.ageRead.vset + 1] }) ∧
      (s.ageRead.needsMore = false → t.age.settling = false ∧ t.age.startup = false ∧ t.age.raises = x.raises ∧
        (∃ m, t.age.low = some m ∧ ∀ l, x.low = some l → m ≤ l) ∧
        t.rf Reg.AGE_PLAN 31 16 = t.age.rplan % 65536 ∧
        (x.startup = false → t.age.rplan ≤ x.rplan ∧
          (t.age.rplan < x.rplan → t.age.cuts = x.cuts + 1 ∧ t.rb Reg.SYS_DET 6 = true ∧
            t.rb Reg.AGE_STAT 3 = true)))) ∧
    exec .vsetSettleExpiry s =
      .next (if x.settling then { s with age := { x with settling := false, measuring := true } } else s) ∧
    (s.awake = false → exec .agehAppend s = .next s) ∧
    (s.awake = true → s.nvm.op.isSome = true ∨ s.phase = .commit →
      exec .agehAppend s = .next { s with nvm := { s.nvm with agehDue := s.nvm.agehDue ++ [s.agehEntry] } }) ∧
    (s.awake = true → s.nvm.op = none → s.phase ≠ .commit → ∃ t o, exec .agehAppend s = .next t ∧
      t = { s with csr := t.csr, mem := t.mem, nvm := { op := some o, agehDue := s.nvm.agehDue },
                   age := { x with raises := 0, cuts := 0 } } ∧
      o.op = 1 ∧ o.rid = 6 ∧ o.req = none ∧ o.data = s.agehNext s.agehEntry ∧
      (∀ r, recordOf 6 = some r → o.result = if s.nextSeq 6 r = 2 ^ 48 then 4 else 0) ∧
      ∀ a, a < nvmBase → t.byte a = s.byte a)

/-! ### The frame strobe, events, and publications -/

/-- FRAME_STROBE, with no media clock nothing (log entry 1); otherwise, where no staged transaction is due and the sag level
has not moved, nor a change of engine rate waits: engine time moves by one frame, and each running FRAME timer of TMR counts
down by one and expires at zero (R569, R570), a REF timer expires once its cycles have passed, and a timer at rest stands
still. In SLEEP nothing else of the engine moves: no core, slot, event, bus or byte of memory, and no converter but for a mute
that ends (R446, R613). At a strobe of RUN inside a block, with no task on any core, no mute and no invalid read-out to come:
each destination's read-out is its bus frame of D blocks before, in the form of its width, or zero while none has been closed
or the destination is off (R27, R383), and the previous read-out is the one being sent (R389).

Every strobe of RUN is made of these, in this order: stages and ranks close, the read-outs are taken, timers count and due
transactions apply, the sag level acts; then, where it opens a block, every slot and tail of the block before ends, the block
opens, its control ticks release their events and evaluate the fabric, and its tasks are created; the media clock's update is
last (R93, R376, R537). What a strobe that opens a block is made of: a slot ends as R112 has it, and a tail with its ramp
(R136); every voice and tail that lives gets its task, a note-start task in its first block (R301); a context goes to the
first core in R318's order of those that qualify, at the lowest free run of its pool (R317); ranks close in order, and inputs
are written as their buses close (R374, R377); a node advances at the rate and on the input that its strings sum to, may end
its voice (R266, R286, R290), and the frame of a voice holds its 32 destinations (R281); the media clock follows the qualified
candidate of highest PRIO, or none (R461 to R468). (The model's choices in it: log entries 2, 8, 25, 36, 39, 42 and 55.) -/
def Obligations.FrameStrobes : Prop :=
  (∀ s : State, s.clocked = false → exec .frameStrobe s = .next s) ∧
  (∀ (f : Nat) (s : State), s.clocked = true → s.now = some f → s.dueTxns (f + 1) = [] → s.sagLevel = s.sagActed →
      s.mck.ratePend = none →
    ∃ t, exec .frameStrobe s = .next t ∧
      (s.phase = .sleep →
        t = { s with
          now := some (f + 1), strobes := s.strobes + 1, refCyc := 0, refNow := t.refNow, refAll := t.refAll, csr := t.csr
          ports := t.ports, hmap := t.hmap, mck := t.mck, col := { s.col with invalidTo := t.col.invalidTo }
          sagHeld := t.sagHeld, mute := t.mute, dac := t.dac, wsPend := t.wsPend, wsBusy := t.wsBusy, stgs := t.stgs
          nvm := t.nvm } ∧
        (s.mute = none → t.mute = none ∧ t.dac = s.dac) ∧ (s.sagLevel < 3 → t.mute = none)) ∧
      (s.phase = .run → s.sagLevel < 3 → (f + 1) % 16 ≠ 0 → s.mute = none → s.col.invalidTo ≤ f + 1 →
        (∀ e ∈ s.cores, e.2.list = [] ∧ e.2.run = none ∧ e.2.saved = []) →
        t.now = some (f + 1) ∧ t.phase = .run ∧ t.slots = s.slots ∧ t.heap = s.heap ∧ t.col.readoutInvalid = false ∧
          t.col.sent = s.col.readout ∧ t.col.acc = s.col.acc ∧
          ∀ j, j < 66 ∨ (72 ≤ j ∧ j < 80) →
            tget 0 t.col.readout j =
              if bit (s.outMap j) 31 = true ∧ 16 * s.depth ≤ f + 1 then
                wordI (readForm (s.destWidth j)
                  (s.bus ((f + 1 - 16 * s.depth) / 16) (fld (s.outMap j) 7 0) ((f + 1 - 16 * s.depth) % 16)))
              else 0) ∧
      (s.phase = .sleep ∨
        (s.phase = .run ∧ s.sagLevel < 3 ∧ (f + 1) % 16 ≠ 0 ∧ s.mute = none ∧ s.col.invalidTo ≤ f + 1 ∧
          ∀ e ∈ s.cores, e.2.list = [] ∧ e.2.run = none ∧ e.2.saved = []) →
        ∀ k : Fin 16,
          (s.tmrRun k.val = true → s.tmrRef k.val = false → 1 < (s.reg (Reg.TMR_COUNT k.val)).toNat →
            (t.reg (Reg.TMR_COUNT k.val)).toNat = (s.reg (Reg.TMR_COUNT k.val)).toNat - 1 ∧
              t.reg (Reg.TMR_STAT k.val) = s.reg (Reg.TMR_STAT k.val)) ∧
          (s.tmrRun k.val = true → s.tmrRef k.val = false → (s.reg (Reg.TMR_COUNT k.val)).toNat ≤ 1 →
            t.reg (Reg.TMR_COUNT k.val) = 0 ∧ t.tmrExp k.val = true ∧ t.tmrRun k.val = false) ∧
          (s.tmrRun k.val = true → s.tmrRef k.val = true → tget 0 s.refEnd k.val ≤ t.refAll →
            t.reg (Reg.TMR_COUNT k.val) = 0 ∧ t.tmrExp k.val = true ∧ t.tmrRun k.val = false) ∧
          (s.tmrRun k.val = false ∨ (s.tmrRef k.val = true ∧ t.refAll < tget 0 s.refEnd k.val) →
            t.reg (Reg.TMR_COUNT k.val) = s.reg (Reg.TMR_COUNT k.val) ∧
              t.reg (Reg.TMR_STAT k.val) = s.reg (Reg.TMR_STAT k.val)))) ∧
  -- the order of a strobe
  (∀ (f : Nat) (s : State), s.clocked = true → s.now = some f → s.phase = .run →
    let opens := decide ((f + 1) % 16 = 0)
    let a := (s.clockAdvance.muteStep.drainIntake.stagesClose opens).strobeOut.tmrAround State.strobeTxns
    let b := (a.muteBegin a.sagLevel).sagAct
    let c := if opens then (b.blockBoundary b.block).sagForce.blockWork s.clockAdvance b.block else b
    exec .frameStrobe s = .next { c.ptmStrobe.mckUpdate false with pending := s.pending }) ∧
  (∀ (k f : Nat) (s : State),
    s.blockEnds k = (s.slots.foldl (fun t e => State.slotBlockEnd k t e.1) s).tails.foldl
      (fun t e => State.tailBlockEnd k t e.1) (s.slots.foldl (fun t e => State.slotBlockEnd k t e.1) s) ∧
    s.applyTxns f = (s.dueTxns f).foldl (State.applyTxn f) s ∧
    (s.mck.ratePend = none → s.rateDue = s) ∧
    (s.rb Reg.MOD_CTRL 0 = true → s.ctick ≠ 8 → ∀ x, s.ticksAt f = [x] →
      s.controlTicks (s.ticksAt f) = (s.tickEvents x).fabricTick x) ∧
    (s.ctick ≠ 8 → 0 < s.ctick → s.ticksAt f = if f % s.ctick = 0 then [f] else [])) ∧
  -- slots and tails
  (∀ (k : Nat) (v : Fin 8192) (s : State),
    let x := s.slot v.val
    let t := State.slotBlockEnd k s v.val
    let freed := t.slot v.val = {} ∧ (∀ w, w ≠ v.val → t.slot w = s.slot w) ∧ (t.ctx v.val).placed = false ∧
      (t.ctx v.val).epoch = (s.ctx v.val).epoch ∧ t.tails = s.tails ∧ t.mem = s.mem ∧ t.intake = min (s.intake + 1) 4096
    let ended := ∃ b, x.endBlk = some b ∧ b ≤ k
    (x.state = .free → t = s) ∧ (x.state = .faulted → freed) ∧
    (x.state = .starting →
      (k < x.firstBlk → t = s) ∧ (x.firstBlk ≤ k → ended → freed) ∧
      (x.firstBlk ≤ k → ¬ ended → t = s.setSlot v.val (if x.gateOff.isSome then { x with state := .released, held := false }
        else { x with state := .active }))) ∧
    (x.state = .active ∨ x.state = .released → (ended → freed) ∧ (¬ ended → t = s)) ∧
    (∀ a l, x.state = .dying → x.ramp = some (a, l) → ((a + l - 1) / 16 ≤ k → freed) ∧ (k < (a + l - 1) / 16 → t = s))) ∧
  (∀ (k : Nat) (n : Fin 256) (s : State),
    let x := s.tail n.val
    let t := State.tailBlockEnd k s n.val
    let gone := x.dying = true ∧ (x.faulted = true ∨ (x.rampStart + x.rampLen - 1) / 16 ≤ k)
    (gone → t.tail n.val = {} ∧ (∀ m, m ≠ n.val → t.tail m = s.tail m) ∧ (t.ctx (8192 + n.val)).placed = false ∧
      t.slots = s.slots ∧ t.mem = s.mem) ∧
    (¬ gone → t = s)) ∧
  -- tasks
  (∀ (k : Nat) (v : Fin 8192) (n : Fin 256) (s : State),
    let x := s.slot v.val
    let c := s.ctx v.val
    let y := s.tail n.val
    let d := s.ctx (8192 + n.val)
    let first := k = x.firstBlk ∨ x.owesFirst = true
    let none_ := x.state = .free ∨ x.state = .faulted ∨ c.placed = false ∨ k < x.firstBlk ∨ c.tasked = some k
    let gone := y.dying = false ∨ y.faulted = true ∨ d.placed = false ∨ d.tasked = some k
    let adds : State → Nat → Nat → Task → Prop := fun t m i u => (t.core m).list = (s.core m).list ++ [u] ∧
      (∀ h, h ≠ m → t.core h = s.core h) ∧ (t.ctx i).tasked = some k ∧ (∀ h, h ≠ i → t.ctx h = s.ctx h) ∧
      t.slots = s.slots ∧ t.mem = s.mem ∧ u.blk = k ∧ u.epoch = (s.ctx i).epoch ∧ u.prog = (s.ctx i).prog ∧
      u.size = (s.ctx i).size ∧ u.ready = false
    (none_ → State.createVoice k s v.val = s) ∧
    (¬ none_ → ∃ u, adds (State.createVoice k s v.val) c.home v.val u ∧ u.region = c.homeBase ∧ u.part = x.part ∧
      (first → u.level = 0 ∧ u.tag.toNat = 8192 + v.val) ∧ (¬ first → u.level = 2 ∧ u.tag.toNat = v.val)) ∧
    (gone → State.createTail k s n.val = s) ∧
    (¬ gone → ∃ u, adds (State.createTail k s n.val) d.ve (8192 + n.val) u ∧ u.region = d.base ∧ u.part = y.part ∧
      u.level = 2 ∧ u.tag.toNat = 0x4000 + n.val ∧ u.ramp = some (y.rampStart, y.rampLen) ∧ u.frameNo = y.frameNo)) ∧
  -- placement
  (∀ (gnum size : Nat) (g : Prog) (s : State),
    (∀ n, s.choosePlace gnum g = some n → n < 64 ∧ s.qualifies n gnum g = true ∧
      ∀ m, m < 64 → s.qualifies m gnum g = true → s.placeBefore gnum m n = false) ∧
    (s.choosePlace gnum g = none → ∀ m, m < 64 → s.qualifies m gnum g = false) ∧
    ∀ n, let used := s.regionsOn n ++ (s.core n).taskRegions
      let lo := 2048 - s.rf Reg.PUP_CTRL 28 24 * 64
      (∀ b, s.poolRun n size = some b → lo ≤ b ∧ b + size ≤ 2048 ∧ (∀ r ∈ used, overlaps b size r.1 r.2 = false) ∧
        ∀ c, lo ≤ c → c < b → ∃ r ∈ used, overlaps c size r.1 r.2 = true) ∧
      (s.poolRun n size = none → ∀ c, lo ≤ c → c + size ≤ 2048 → ∃ r ∈ used, overlaps c size r.1 r.2 = true)) ∧
  (∀ (x gnum k : Nat) (g : Prog) (s t : State), s.place x gnum k g = some t →
    ∃ n b, s.choosePlace gnum g = some n ∧ s.poolRun n g.mem = some b ∧ (t.ctx x).placed = true ∧ (t.ctx x).ve = n ∧
      (t.ctx x).base = b ∧ (t.ctx x).size = g.mem ∧ (t.ctx x).cost = g.cost ∧ (t.ctx x).prog = gnum ∧
      (t.ctx x).epoch = (s.ctx x).epoch + 1 ∧ (∀ y, y ≠ x → t.ctx y = s.ctx y) ∧ t.slots = s.slots) ∧
  -- buses
  (∀ (k fuel : Nat) (p : Fin 256) (s : State),
    let u := State.reportInputs k s p.val
    let a := s.inputArea p.val
    let r := s.closedRanks k
    (∀ i j, i < 4 → j < 16 → u.word (a + 64 * i + 4 * j) =
      if i < s.taskNin p.val ∧ s.busOwner k (s.taskIn p.val i) = s.taskOwner p.val then
        wordI (readForm 32 (s.bus k (s.taskIn p.val i) j)) else 0) ∧
    (∀ b, b < a ∨ a + 256 ≤ b → u.byte b = s.byte b) ∧ u.col = s.col ∧ u.csr = s.csr ∧
    (∀ x ∈ (u.core (s.taskVe p.val)).list, x.level = 1 → x.blk = k → x.tag.toNat % 256 = p.val → x.inputsIn = true) ∧
    (s.closeRank k).closedRanks k = r + 1 ∧ (∀ j, j ≠ k → (s.closeRank k).closedRanks j = s.closedRanks j) ∧
    (s.rmax < r → State.closeDue k fuel s = s) ∧
    (s.frame < s.dl k r → r = 0 ∨ s.p1Below k r = true → State.closeDue k fuel s = s) ∧
    (r ≤ s.rmax → s.dl k r ≤ s.frame ∨ (1 ≤ r ∧ s.p1Below k r = false) →
      State.closeDue k (fuel + 1) s = State.closeDue k fuel (s.closeRank k))) ∧
  -- the fabric
  (∀ (f : Nat) (v : Fin 8192) (k : Fin 16) (s : State),
    let x := s.slot v.val
    let a := voiceNode v.val k.val
    let n := s.nodeAt a
    let t := State.evalVoiceNode f v.val k.val s
    let ends := endReached n (t.nodeAt a) = true ∧ s.rf (Reg.VAL_PART_CFG x.part) 3 0 = k.val
    (n.bad false = true → t.mem = s.mem ∧ (∀ w, w ≠ v.val → t.slot w = s.slot w)) ∧
    (n.bad false = false → t.csr = s.csr ∧ t.pubs = s.pubs ∧ (∀ w, w ≠ v.val → t.slot w = s.slot w) ∧
      (∀ b, b < a ∨ a + 32 ≤ b → t.byte b = s.byte b) ∧
      (ends → t.slot v.val = { x with endBlk := some ((f + s.ctick - 1) / 16) }) ∧ (¬ ends → t.slot v.val = x) ∧
      (x.fresh = false → x.gates = [] → t = (if ends then fun u => u.setSlot v.val { x with endBlk := some ((f + s.ctick - 1) / 16) }
          else id)
        (s.setNode a (n.advance (scaleAdvance (s.ctick * 256) (s.destSum v.val x (32 + k.val))) (s.destSum v.val x (48 + k.val))))))) ∧
  (∀ (f : Nat) (v : Fin 8192) (s : State), s.ctick ≠ 8 → (∀ q ∈ s.pubs, q.voice = v.val → q.blk ≠ f / 16) →
    let t := State.evalVoice f s v.val
    ∃ q, t.pubs = s.pubs ++ [q] ∧ q.voice = v.val ∧ q.blk = f / 16 ∧ q.home = (s.ctx v.val).home ∧
      q.frameNo = s.frameOfBlock (f / 16) ∧
      q.words = (List.range 32).map (fun d =>
        (d, t.destValue (t.slot v.val).part (fun i => t.destSum v.val (t.slot v.val) i) d)) ∧
      (t.slot v.val).fresh = false ∧ (t.slot v.val).state = (s.slot v.val).state ∧
      ∀ b, (b < voiceNode v.val 0 ∨ voiceNode v.val 0 + 512 ≤ b) → t.byte b = s.byte b) ∧
  -- the media clock
  (∀ (first : Bool) (s : State),
    let t := s.mckUpdate first
    let prio := fun r => s.rf (Reg.MCK_REF r) 30 28
    t = { s with csr := t.csr, ports := t.ports, mck := t.mck, col := { s.col with invalidTo := t.col.invalidTo } } ∧
    (∀ r, t.mck.target = some r → (t.cand r).qualified = true ∧ -yLimit ≤ t.mck.y ∧ t.mck.y ≤ yLimit ∧
      (∀ q, q < 5 → (t.cand q).qualified = true → prio q ≤ prio r) ∧
      (t.mck.st = .locked → t.mck.lockNext = false → t.mck.y = t.lockedCorrection r)) ∧
    (t.mck.target = none → (∀ q, q < 5 → (t.cand q).qualified = false) ∧ t.mck.interval = s.sckPerFrame ∧
      (s.rb Reg.MCK_CTRL 4 = true → t.mck.st = .holdover ∧ t.mck.y = t.mck.yHold) ∧
      (s.rb Reg.MCK_CTRL 4 = false → t.mck.st = .free ∧ t.mck.y = 0)) ∧
    (t.mck.interval ≠ s.sckPerFrame → t.mck.lockNext = true ∧ s.frame + 9 ≤ t.col.invalidTo) ∧
    (s.mck.lockNext = true → s.mck.target.isSome = true → t.mck.target = s.mck.target → t.mck.st = .locked) ∧
    (t.mck.target ≠ s.mck.target → t.rb Reg.MCK_STAT 6 = true ∧
      (t.reg (Reg.MCK_CNT 0)).toNat = min ((s.reg (Reg.MCK_CNT 0)).toNat + 1) 0xFFFFFFFF))

/-- The release of events (R60, R89 to R92, R98, R99, R112, R116, R121). The events due at a control tick stand in the order
of R89, and are released in it while the intake has room; those left keep that order. DEFERRED_RELEASE releases what a full
intake left of a tick, unless every ready list is full, LATE being counted and flagged for an event with a stamp (log entry 36,
the model's reading). A MIDI byte goes to the service queue of the selected Stage Engine;
PART_PRESS sets the part's pressure; a NOTE_OFF releases the voice of its handle; a NOTE_ON takes the lowest free slot
and is dropped where its source drops late notes.

The allocator (R123 to R139): a voice takes the lowest free slot where quota, reserve, cost and placement allow it, else
that of the first victim that the parts in R125's order yield, or its own part; a victim is the least by its policy's key
(R128), and goes to the lowest free tail with its context or is cut, its ramp standing in its place. A shortfall of a unison note
is counted. A mono or legato part keeps up to 8 held handles; a note
takes over its STARTING voices, steals the ACTIVE one, or in legato changes handle and pitch; a NOTE_OFF returns to the most
recent held one. (The model's choices in it: log entries 36, 54 and 62.)

Publications (R281, R282, R293, R677): FRAME_PUBLISH takes the oldest of the voice that its slice has still to make, once its
turn has come: its words go to the frame buffer of the context and no other byte changes; one held for a copy waits, its
slice going on; while an earlier task still reads that frame it is deferred, counted and flagged, and DEFERRED_PUBLISH makes
it when no task reads it any more, or it is made before a later one of the voice. Tasks that waited for it become ready; the
last one of a slice for a block shows in MOD_TEVAL how long the slice took. Where nothing is to be released or published,
nothing happens (log entry 1). (The model's choice in it: log entry 62.) -/
def Obligations.Publications : Prop :=
  (∀ (f lim : Nat) (s : State),
    (s.dueList f lim).Pairwise (fun a b => s.releasedBefore f b a = false) ∧
    ∀ e, e ∈ s.dueList f lim ↔ e ∈ s.heap ∧ ∀ x, e.stamp = some x → x < lim) ∧
  (∀ (tick f : Nat) (late : Bool) (e : HeapEntry) (l : List HeapEntry) (s : State),
    let around := s.paused.filter fun x => decide (x.1 ≠ tick)
    State.releaseList tick f late [] s = { s with paused := around } ∧
    (s.intake < 4096 →
      State.releaseList tick f late (e :: l) s = State.releaseList tick f late l (s.releaseOne tick f late e)) ∧
    (4096 ≤ s.intake →
      State.releaseList tick f late (e :: l) s = { s with paused := (tick, (e :: l).map (·.seq)) :: around })) ∧
  (∀ s : State, s.engineRuns = false ∨ s.rb Reg.EVT_CTRL 0 = false → exec .deferredRelease s = .next s) ∧
  (∀ s : State, s.engineRuns = true → s.rb Reg.EVT_CTRL 0 = true →
    (s.paused = [] → exec .deferredRelease s = .next (if s.listsFull then s else { s with intake := 0 })) ∧
    (∀ f e l, s.paused = [(f, (e :: l).map (·.seq))] → s.leftOf ((e :: l).map (·.seq)) = e :: l → s.listsFull = true →
      4096 ≤ s.intake → exec .deferredRelease s = .next s)) ∧
  (∀ (f : Nat) (e : HeapEntry) (s : State), s.engineRuns = true → s.rb Reg.EVT_CTRL 0 = true → s.listsFull = false →
    s.paused = [(f, [e.seq])] → s.leftOf [e.seq] = [e] → (∀ p, e.item.part = some p → s.ownerFails e.src p = none) →
    let on := s.nextTick * 256
    let late : State → Prop := fun t => t.paused = [] ∧ t.heap = (s.heap.filter fun x => decide (x.seq ≠ e.seq)) ∧
      (e.stamp.isSome = true → t.rb Reg.EVT_STAT 3 = true ∧
        (t.reg (Reg.EVT_CNT 0)).toNat = min ((s.reg (Reg.EVT_CNT 0)).toNat + 1) 0xFFFFFFFF) ∧
      (e.stamp = none → t.reg (Reg.EVT_CNT 0) = s.reg (Reg.EVT_CNT 0))
    let released := fun (p : State → Prop) => ∃ t, exec .deferredRelease s = .next t ∧ late t ∧ p t
    let plain := fun (t : State) => t.mem = s.mem ∧ t.tails = s.tails ∧ t.cores = s.cores ∧ t.ctxs = s.ctxs
    (∀ b, e.item = .midi b → (s.stg (s.rf Reg.EVT_CTRL 8 8)).svcq.length < 256 → released fun t =>
      t = { s with csr := t.csr, ports := t.ports, intake := 0, paused := [], heap := t.heap, stgs := t.stgs } ∧
      (t.stg (s.rf Reg.EVT_CTRL 8 8)).svcq =
        (s.stg (s.rf Reg.EVT_CTRL 8 8)).svcq ++ [(e.at f, e.src, .midi b)]) ∧
    (∀ (p : BitVec 10) (h : BitVec 16) (w : Word), e.item = .native 0x11 p h w → released fun t =>
      plain t ∧ t.slots = s.slots ∧ t.part p.toNat = { s.part p.toNat with press := w } ∧
      ∀ r, r ≠ p.toNat → t.part r = s.part r) ∧
    (∀ (p : BitVec 10) (h : BitVec 16) (w : Word), e.item = .native 0x01 p h w →
      e.stamp.isSome = true → s.rb (Reg.EVT_SRC_MODE e.src) 7 = true → released fun t =>
        plain t ∧ t.slots = s.slots ∧ t.parts = s.parts) ∧
    (∀ (p : BitVec 10) (h : BitVec 16) (w : Word), e.item = .native 0x01 p h w →
      e.stamp = none ∨ s.rb (Reg.EVT_SRC_MODE e.src) 7 = false → s.valOn = false → released fun t =>
        plain t ∧ t.slots = s.slots ∧
        (t.reg (Reg.VAL_CNT 3)).toNat = min ((s.reg (Reg.VAL_CNT 3)).toNat + 1) 0xFFFFFFFF) ∧
    (∀ (p : BitVec 10) (h : BitVec 16) (w : Word) (v : Nat), e.item = .native 0x02 p h w → s.valOn = true →
      s.partMode p.toNat = 0 → s.offTargets p.toNat h = [v] → (s.part p.toNat).hold = false →
      (s.slot v).part = p.toNat → (s.slot v).state = .active → released fun t =>
        plain t ∧ (∀ u, u ≠ v → t.slot u = s.slot u) ∧
        t.slot v = { s.slot v with
          state := .released, held := false, gateOff := some on, gates := (s.slot v).gates ++ [on]
          relVel := w.extractLsb' 0 16 }) ∧
    (∀ (p : BitVec 10) (h : BitVec 16) (w : Word) (v gnum : Nat) (g : Prog), e.item = .native 0x01 p h w →
      e.stamp = none → s.valOn = true → s.notesRefused = false →
      s.partProgram p.toNat = some (gnum, g) → s.partMode p.toNat = 0 → s.rf (Reg.VAL_PART_CFG p.toNat) 22 19 = 0 →
      (s.voicesWhere p.toNat fun x => decide (x.handle = h) && x.state.sounding) = [] →
      s.live p.toNat < s.notesMax p.toNat → s.slotsUsed < s.slotLimit →
      s.live p.toNat < s.quotaMin p.toNat ∨ s.reserve p.toNat < s.slotLimit - s.slotsUsed →
      s.admits g none = true → (s.choosePlace gnum g).isSome = true → s.lowestFree = some v → released fun t =>
        (∀ u, u ≠ v → t.slot u = s.slot u) ∧ (t.slot v).state = .starting ∧ (t.slot v).part = p.toNat ∧
        (t.slot v).handle = h ∧ (t.slot v).pitch = w.extractLsb' 16 16 ∧ (t.slot v).velocity = w.extractLsb' 0 16 ∧
        (t.slot v).onset = on ∧ (t.slot v).firstBlk = on / 4096 ∧ (t.slot v).gateOff = none ∧
        (t.ctx v).placed = true ∧ some (t.ctx v).ve = s.choosePlace gnum g ∧
        (t.reg (Reg.VAL_CNT 0)).toNat = min ((s.reg (Reg.VAL_CNT 0)).toNat + 1) 0xFFFFFFFF)) ∧
  -- the allocator
  (∀ (q v : Nat) (ok : Slot → Bool) (s : State),
    v ∈ s.voicesWhere q ok ↔ ∃ x, (v, x) ∈ s.slots ∧ x.part = q ∧ x.state ≠ .free ∧ ok x = true) ∧
  (∀ (q pol : Nat) (s : State),
    let c := s.voicesWhere q fun x => x.state.candidate
    let rel := s.voicesWhere q fun x => decide (x.state = .released)
    let least := fun (key : Nat → Nat × Nat × Nat) (l : List Nat) (v : Nat) =>
      v ∈ l ∧ ∀ w ∈ l, w ≠ v → lexLess (key v) (key w) = true
    (s.chooseVictim q pol = none ↔ c = []) ∧
    ∀ v, s.chooseVictim q pol = some v →
      (pol = 0 → rel ≠ [] → least (fun w => ((s.slot w).gateOff.getD 0, w, 0)) rel v) ∧
      (pol = 2 ∨ (pol = 0 ∧ rel = []) → least (fun w => ((s.slot w).grantTime, w, 0)) c v) ∧
      (pol = 1 → least (fun w => ((s.slot w).level, (s.slot w).grantTime, w)) c v) ∧
      (pol = 3 → least (fun w => ((s.slot w).pitch.toNat, (s.slot w).grantTime, w)) c v) ∧
      (pol = 4 → least (fun w => (0xFFFF - (s.slot w).pitch.toNat, (s.slot w).grantTime, w)) c v)) ∧
  (∀ (v : Fin 8192) (onset : Nat) (g : Prog) (s : State),
    let x := s.slot v.val
    let c := s.ctx v.val
    let t := s.retire v.val onset g
    let tailed := s.rb Reg.VAL_CTRL 1 = true ∧ s.admitsTail g = true ∧ s.freeTailSlot.isSome = true
    let steals := fun (n : Nat) => (t.reg (Reg.VAL_CNT n)).toNat = min ((s.reg (Reg.VAL_CNT n)).toNat + 1) 0xFFFFFFFF
    t.slot v.val = {} ∧ (∀ w, w ≠ v.val → t.slot w = s.slot w) ∧ (t.ctx v.val).placed = false ∧ t.mem = s.mem ∧
      t.parts = s.parts ∧ t.intake = min (s.intake + 1) 4096 ∧ (∀ o ∈ t.pubs, o.voice ≠ v.val) ∧ steals 1 ∧
      (∀ m, ∀ y ∈ (t.core m).list, y.tag.toNat ≠ v.val ∧ y.tag.toNat ≠ v.val + 8192) ∧
    (tailed → t.reg (Reg.VAL_CNT 2) = s.reg (Reg.VAL_CNT 2) ∧ ∃ n, n < s.tailLimit ∧ (s.tail n).dying = false ∧
      (∀ m, m < n → (s.tail m).dying = true) ∧ (∀ m, m ≠ n → t.tail m = s.tail m) ∧
      t.tail n = {
        dying := true, part := x.part, voice := v.val, prog := c.prog, rampStart := onset / 256
        rampLen := s.declick x.part, frameNo := c.pubFrame } ∧
      (t.ctx (8192 + n)).placed = c.placed ∧ (t.ctx (8192 + n)).ve = c.ve ∧ (t.ctx (8192 + n)).base = c.base ∧
      (t.ctx (8192 + n)).size = c.size ∧ (t.ctx (8192 + n)).cost = c.cost ∧ (t.ctx (8192 + n)).mig = none ∧
      (t.ctx (8192 + n)).epoch = c.epoch + 1) ∧
    (¬ tailed → t.tails = s.tails ∧ steals 2 ∧ t.rb Reg.VAL_STAT 1 = true ∧
      ∀ b y, s.stealBlock v.val = s.block → 0 < s.block → b < 256 →
        tget (0, []) s.col.kept v.val = (s.block - 1, [(b, y)]) →
        s.laneAllowed (BitVec.ofNat 16 v.val) x.part s.block b = true →
        ∀ j, j < 4 → t.bus s.block b j = s.bus s.block b j + rnd ((3 - (j : Int)) * y.toInt) 2)) ∧
  (∀ (p gnum onset : Nat) (g : Prog) (s : State),
    let r := s.getSlot p gnum g onset
    let free := s.slotLimit - s.slotsUsed
    let below := s.live p < s.notesMax p
    let room := below ∧ 0 < free ∧ (s.live p < s.quotaMin p ∨ s.reserve p < free)
    let fits := fun (w : Option Nat) => s.placeable gnum g w (s.toTail g) = true
    let may := fun (q : Nat) => below ∧ q ≠ p ∧ q ∈ s.partsByPrio ∧ s.quotaMin q < s.live q ∧
      (s.live p < s.quotaMin p ∨ (s.rb (Reg.VAL_PART_CFG p) 18 = true ∧ s.partPrio q < s.partPrio p))
    let pol := fun (q : Nat) => if q = p then s.partSteal p else s.victimPolicy q
    let victim := fun (q v : Nat) => pol q ≠ 5 ∧ s.chooseVictim q (pol q) = some v ∧ s.admits g (some v) = true
    let yields := fun (q v : Nat) => victim q v ∧ fits (some v)
    (∀ v, s.lowestFree = some v → (s.slot v).state = .free ∧ ∀ w, w < v → (s.slot w).state ≠ .free) ∧
    (room → s.admits g none = true → fits none → r.slot = s.lowestFree ∧ r.state = s) ∧
    (¬ (room ∧ s.admits g none = true ∧ fits none) →
      (r.slot = none → r.state = s ∧ (∀ q v, may q ∨ q = p → ¬ yields q v) ∧
        (r.placeFail = true ↔ (room ∧ s.admits g none = true ∧ ¬ fits none) ∨
          ∃ q v, (may q ∨ q = p) ∧ victim q v ∧ ¬ fits (some v))) ∧
      ∀ v, r.slot = some v → r.state = s.retire v onset g ∧ ∃ q, yields q v ∧
        ((may q ∧ ∀ h w, may h → h < 1024 → q < 1024 →
            s.partPrio h < s.partPrio q ∨ (s.partPrio h = s.partPrio q ∧ h < q) → ¬ yields h w) ∨
          (q = p ∧ ∀ h w, may h → ¬ yields h w)))) ∧
  (∀ (n : Note) (gnum : Nat) (g : Prog) (s : State),
    let asked := s.rf (Reg.VAL_PART_CFG n.part) 22 19 + 1
    (∃ f : Nat → State × Nat, f 0 = (s, 0) ∧ s.grantNote n gnum g = (f asked).1.noteOutcome (f asked).2 asked ∧
      ∀ u, u < asked →
        let r := (f u).1.getSlot n.part gnum g n.onset
        (∀ v, r.slot = some v → f (u + 1) = (r.state.grant n gnum g v u, (f u).2 + 1)) ∧
        (r.slot = none → f (u + 1) = (if r.placeFail then r.state.count (Reg.PUP_CNT 3) else r.state, (f u).2))) ∧
    (let t := s.noteOutcome 0 asked
     t = { s with csr := t.csr, ports := t.ports } ∧ t.rb Reg.VAL_STAT 0 = true ∧
      (t.reg (Reg.VAL_CNT 3)).toNat = min ((s.reg (Reg.VAL_CNT 3)).toNat + 1) 0xFFFFFFFF) ∧
    (∀ got, 0 < got →
      s.noteOutcome got asked = if got < asked then s.count (Reg.VAL_CNT 6) else s) ∧
    ∀ v u, (s.place v gnum (n.onset / 4096) g).isSome = true →
      let t := s.grant n gnum g v u
      (∀ w, w ≠ v → t.slot w = s.slot w) ∧ (t.slot v).state = .starting ∧ (t.slot v).part = n.part ∧
      (t.slot v).handle = n.handle ∧ (t.slot v).pitch = n.pitch ∧ (t.slot v).velocity = n.vel ∧ (t.slot v).unison = u ∧
      (t.slot v).grantTime = n.onset ∧ (t.slot v).onset = n.onset ∧ (t.slot v).firstBlk = n.onset / 4096 ∧
      (t.reg (Reg.VAL_CNT 0)).toNat = min ((s.reg (Reg.VAL_CNT 0)).toNat + 1) 0xFFFFFFFF) ∧
  -- mono and legato parts
  (∀ (n : Note) (gnum : Nat) (g : Prog) (s : State), s.notesRefused = false → s.partProgram n.part = some (gnum, g) →
    (s.voicesWhere n.part fun x => decide (x.handle = n.handle) && x.state.sounding) = [] →
    let st := pushHeld (s.part n.part).stack n
    let a := s.setPart n.part { s.part n.part with stack := st }
    let sounding := s.voicesWhere n.part fun x => x.state.sounding
    let starting := s.voicesWhere n.part fun x => decide (x.state = .starting)
    let active := s.voicesWhere n.part fun x => decide (x.state = .active)
    let asked := s.rf (Reg.VAL_PART_CFG n.part) 22 19 + 1
    (st.length ≤ 8 ∧ st.head? = some (n.handle, n.pitch, n.vel)) ∧
    (s.partMode n.part = 0 → s.noteOn n = s.grantNote n gnum g) ∧
    (s.partMode n.part ≠ 0 → sounding = [] → s.noteOn n = a.grantNote n gnum g) ∧
    (s.partMode n.part = 2 → sounding ≠ [] → s.noteOn n = a.legatoChange n) ∧
    (s.partMode n.part = 1 → starting ≠ [] → active = [] →
      s.noteOn n = (starting.foldl (State.takeOver n) a).noteOutcome starting.length asked) ∧
    ∀ v, s.partMode n.part = 1 → starting = [] → active = [v] → asked = 1 → s.partSteal n.part ≠ 5 →
      a.admits g (some v) = true → a.placeable gnum g (some v) (a.toTail g) = true →
      s.noteOn n = (a.retire v n.onset g).grant n gnum g v 0) ∧
  (∀ (n : Note) (v : Fin 8192) (s : State),
    let l := s.voicesWhere n.part fun x => x.state.sounding
    let t := s.legatoChange n
    let x := s.slot v.val
    let u := State.takeOver n s v.val
    t = { s with slots := t.slots } ∧
    (l.Nodup → ∀ w, (w ∉ l → t.slot w = s.slot w) ∧ (w ∈ l → t.slot w = { s.slot w with
      handle := n.handle, pitch := n.pitch, legatos := (t.slot w).legatos } ∧ n.onset ∈ (t.slot w).legatos)) ∧
    (∀ w, w ≠ v.val → u.slot w = s.slot w) ∧ (u.slot v.val).state = .starting ∧ (u.slot v.val).handle = n.handle ∧
    (u.slot v.val).pitch = n.pitch ∧ (u.slot v.val).velocity = n.vel ∧ (u.slot v.val).onset = n.onset ∧
    (u.slot v.val).firstBlk = n.onset / 4096 ∧ (u.slot v.val).gateOff = none ∧ (u.slot v.val).unison = x.unison ∧
    (∀ m, ∀ y ∈ (u.core m).list, y.tag.toNat ≠ v.val ∧ y.tag.toNat ≠ v.val + 8192) ∧
    ((s.ctx v.val).tasked = some s.block → s.voiceQueued v.val = false → (∀ e ∈ (s.ctx v.val).past, e.1 ≤ s.block) →
      u.epochFor v.val s.block = (s.ctx v.val).epoch + 1)) ∧
  (∀ (p onset : Nat) (h vel : BitVec 16) (s : State), s.partMode p ≠ 0 → (∃ e ∈ (s.part p).stack, e.1 = h) →
    let rest := (s.part p).stack.filter fun e => decide (e.1 ≠ h)
    let a := s.setPart p { s.part p with stack := rest }
    let off := fun (u : State) => (u.offTargets p h).foldl (State.noteOffVoice onset vel) u
    (rest = [] → s.noteOff p h vel onset = off a) ∧
    (∀ e l, rest = e :: l → s.soundingHandle p ≠ some h → s.noteOff p h vel onset = off a) ∧
    (∀ e l, rest = e :: l → s.soundingHandle p = some h →
      let n : Note := { part := p, handle := e.1, pitch := e.2.1, vel := e.2.2, onset := onset }
      (s.partMode p = 2 → s.noteOff p h vel onset = a.legatoChange n) ∧
      (∀ gnum g, s.partMode p = 1 → s.notesRefused = false → s.partProgram p = some (gnum, g) →
        s.noteOff p h vel onset = off (a.monoNote n gnum g)))) ∧
  (∀ (v : Fin 8192) (q : PubFrame) (s : State), s.engineRuns = true → (q.words.map (·.1)).Nodup → (∀ e ∈ q.words, e.1 < 32) →
    let rest := s.pubs.filter fun o => decide (o ≠ q)
    let c := s.ctx v.val
    let made (i : Instr) (noted : Bool) := ∃ t, exec i s = .next t ∧
      t = { s with
        csr := t.csr, mem := t.mem, ctxs := t.ctxs, cores := t.cores, readySeq := s.readySeq + 1, evals := t.evals
        draw := t.draw, pubs := rest } ∧
      (∀ n, t.core n = { s.core n with list := (t.core n).list }) ∧
      (noted = false → t.csr = s.csr ∧ t.evals = s.evals ∧ t.draw = s.draw) ∧
      (∀ a, (∀ n, a ≠ Reg.MOD_TEVAL n) → t.reg a = s.reg a) ∧
      (∀ m, noted = true → s.evals = [m] → m.voices = true → m.blk = s.block →
        ((rest.any fun o => !o.loose && decide (o.slice = m.slice) && decide (o.blk ≤ m.blk)) = false →
          t.evals = [] ∧ t.rf (Reg.MOD_TEVAL m.slice) 15 0 = min (s.refTotal - m.opened) 0xFFFF) ∧
        ((rest.any fun o => !o.loose && decide (o.slice = m.slice) && decide (o.blk ≤ m.blk)) = true →
          t.evals = [m] ∧ t.csr = s.csr)) ∧
      t.ctx v.val = (if c.pubBlk.any (q.blk < ·) then c else { c with pubFrame := q.frameNo, pubBlk := some q.blk }) ∧
      (∀ x, x ≠ v.val → t.ctx x = s.ctx x) ∧
      (∀ e ∈ q.words, t.word (s.frameAddr v.val q.frameNo + 4 * e.1) = e.2) ∧
      (∀ a, a < s.frameAddr v.val q.frameNo ∨ s.frameAddr v.val q.frameNo + 128 ≤ a → t.byte a = s.byte a)
    let overdue := s.overdue v.val
    (overdue = s.pubs.filter fun o => decide (o.voice = v.val) && o.deferred && !o.heldForCopy &&
      !s.frameRead v.val o.blk o.frameNo c.ve) ∧
    (s.pubs.find? (fun o => decide (o.voice = v.val) && !(o.heldForCopy && o.loose) && !o.deferred) = some q →
      (s.hasTurn q = false → exec (.framePublish v) s = .next s) ∧
      (s.hasTurn q = true → q.heldForCopy = true → ∃ t, exec (.framePublish v) s = .next t ∧
        t = { s with csr := t.csr, evals := t.evals, draw := t.draw
                     pubs := s.pubs.map fun o => if o = q then { o with loose := true } else o }) ∧
      (s.hasTurn q = true → q.heldForCopy = false → s.frameRead v.val q.blk q.frameNo c.ve = false → overdue = [] →
        made (.framePublish v) true) ∧
      (∀ o, s.hasTurn q = true → q.heldForCopy = false → s.frameRead v.val q.blk q.frameNo c.ve = false → overdue = [o] →
        o.blk < q.blk → c.pubBlk = none → (o.words.map (·.1)).Nodup → (∀ e ∈ o.words, e.1 < 32) →
        o.frameNo ≤ 1 → q.frameNo ≤ 1 →
        ∃ t, exec (.framePublish v) s = .next t ∧ t.pubs = rest.filter (fun x => decide (x ≠ o)) ∧
          t.ctx v.val = { c with pubFrame := q.frameNo, pubBlk := some q.blk } ∧
          (∀ e ∈ q.words, t.word (s.frameAddr v.val q.frameNo + 4 * e.1) = e.2) ∧
          (o.frameNo ≠ q.frameNo → ∀ e ∈ o.words, t.word (s.frameAddr v.val o.frameNo + 4 * e.1) = e.2)) ∧
      (s.hasTurn q = true → q.heldForCopy = false → s.frameRead v.val q.blk q.frameNo c.ve = true →
        ∃ t, exec (.framePublish v) s = .next t ∧
          t = { s with
            csr := t.csr, ports := t.ports, evals := t.evals, draw := t.draw
            pubs := s.pubs.map fun o => if o = q then { o with deferred := true, loose := true } else o } ∧
          t.rb Reg.MOD_STAT 2 = true ∧
          (t.reg (Reg.MOD_CNT 1)).toNat = min ((s.reg (Reg.MOD_CNT 1)).toNat + 1) 0xFFFFFFFF)) ∧
    (∀ l, overdue = q :: l → made (.deferredPublish v) false) ∧
    (overdue = [] → exec (.deferredPublish v) s = .next s)) ∧
  (∀ (v : Fin 8192) (s : State),
    s.engineRuns = false ∨ (∀ o ∈ s.pubs, o.voice ≠ v.val ∨ (o.heldForCopy = true ∧ o.loose = true)) →
    exec (.framePublish v) s = .next s ∧ exec (.deferredPublish v) s = .next s)

/-! ### Digital inputs and reference candidates -/

/-- TDM port frames (R385 to R390): a port that is off sends nothing; a commander sends the read-out that is being sent in its
slots, with its FS and DO in each BCLK period, and, where the read-out is valid, holds the terms of its enabled inputs for the
next block's bus frame; a port 0 that follows a reference it is not locked to sends zeros, which OUT_CNT_RXZERO counts, and
its FS is an edge of candidate 2. S/PDIF (R392, R394): the channel status of a block is what OUT_SPDIF_TX holds at its start;
a received frame stores its channel status, and one that is usable holds the terms of inputs 64 and 65, and one that is not
counts in OUT_CNT_RXZERO, whether or not the receiver runs. Reference candidates (R457 to R459): a first edge of WCLK_IN is
stored with its time, a later one marks the frames since, one out of time is extra, an edge that is extra or follows a missing
one is a break, and 64 frames give the rate; a change of lock measures candidate 1 anew; a candidate whose conditions have
held for 200 ms qualifies. In SLEEP no input is taken (R613). Before the first strobe frames and edges are nothing, and so are
the other commands before the device is awake (log entry 1). (The model's choices in it: log entries 39, 45 and 49.) -/
def Obligations.OutputsAndReferences : Prop :=
  (∀ (n : Fin 4) (x : TdmIn) (f : Nat) (s : State), x.di.length ≤ 1024 → s.clocked = true → s.now = some f →
    let cfg := s.reg (Reg.OUT_TDM_CFG n.val)
    let w := widthOf (fld cfg 23 22)
    (bit cfg 31 = false →
      ∃ t, exec (.tdmPortFrame n x) s = .next t ∧
        t = { s with col := { s.col with tdmOut := t.col.tdmOut } } ∧ tget {} t.col.tdmOut n.val = {}) ∧
    (bit cfg 31 = true → (n.val ≠ 0 ∨ bit cfg 30 = false) →
      ∃ t, exec (.tdmPortFrame n x) s = .next t ∧
        t = { s with col := { s.col with tdmOut := t.col.tdmOut, acc := t.col.acc, inputs := t.col.inputs } } ∧
        tget {} t.col.tdmOut n.val = s.tdmDrives n.val ((List.range (s.tdmSlots n.val)).map fun i =>
          if s.col.sentInvalid then 0 else slotBits w (tget 0 s.col.sent (16 * n.val + i))) ∧
        (s.col.readoutInvalid = true ∨ s.engineRuns = false → t.col.acc = s.col.acc ∧ t.col.inputs = s.col.inputs) ∧
        (s.col.readoutInvalid = false → s.engineRuns = true → (∀ k, s.col.opened = some k → k < (f + 16) / 16) →
          t.col.acc = s.col.acc ∧
          t.col.inputs = s.col.inputs ++ (List.range (s.tdmSlots n.val)).filterMap fun i =>
            let e := s.reg (Reg.COL_IN (16 * n.val + i))
            if bit e 31 then
              some (f + 16, fld e 7 0, s.rf (Reg.COL_BUS (fld e 7 0)) 31 30, (slotWord w (s.tdmSlotIn n.val x.di i)).toInt)
            else none)) ∧
    (n.val = 0 → bit cfg 31 = true → bit cfg 30 = true → s.inForce ≠ some 2 →
      ∃ t, exec (.tdmPortFrame n x) s = .next t ∧
        t = { s with csr := t.csr, mck := t.mck, col := { s.col with tdmOut := t.col.tdmOut } } ∧
        (tget {} t.col.tdmOut 0).slots = List.replicate (s.tdmSlots 0) 0 ∧
        (t.cand 2).fits = decide (x.bclk = s.tdmSlots 0 * s.tdmSlotBits 0) ∧
        (∀ r, r ≠ 2 → t.cand r = s.cand r) ∧
        (t.reg Reg.OUT_CNT_RXZERO).toNat = min ((s.reg Reg.OUT_CNT_RXZERO).toNat + 1) 0xFFFFFFFF)) ∧
  (∀ s : State,
    (s.col.spdifPos = 0 →
      exec .spdifCsBlock s = .next { s with col := { s.col with csNow := s.reg Reg.OUT_SPDIF_TX } }) ∧
    (s.col.spdifPos ≠ 0 → exec .spdifCsBlock s = .next s)) ∧
  (∀ (x : SpdifFrame) (f : Nat) (s : State), s.clocked = true → s.now = some f →
    ∃ t, exec (.spdifRxFrame x) s = .next t ∧
      t = { s with csr := t.csr, mck := t.mck, col := { s.col with acc := t.col.acc, inputs := t.col.inputs } } ∧
      (t.cand 1).edges ≠ [] ∧ (∀ r, r ≠ 1 → t.cand r = s.cand r) ∧
      (s.rb Reg.OUT_SPDIF_RX 31 = false → t.reg Reg.OUT_SPDIF_RXCS = s.reg Reg.OUT_SPDIF_RXCS) ∧
      (s.rb Reg.OUT_SPDIF_RX 31 = true →
        t.reg Reg.OUT_SPDIF_RXCS = x.cs ∧ t.rb Reg.OUT_SPDIF_RX 3 = bit x.cs 1) ∧
      t.rb Reg.OUT_SPDIF_RX 2 = s.spdifUsable x ∧
      (s.spdifUsable x = true → t.reg Reg.OUT_CNT_RXZERO = s.reg Reg.OUT_CNT_RXZERO ∧
        (s.engineRuns = false → t.col = s.col) ∧
        (s.col.readoutInvalid = false → s.engineRuns = true → (∀ k, s.col.opened = some k → k < (f + 15) / 16) →
          t.col.acc = s.col.acc ∧
          t.col.inputs = s.col.inputs ++ [(64, x.left), (65, x.right)].filterMap fun e =>
            let r := s.reg (Reg.COL_IN e.1)
            if bit r 31 then some (f + 15, fld r 7 0, s.rf (Reg.COL_BUS (fld r 7 0)) 31 30, term24 e.2) else none)) ∧
      (s.spdifUsable x = false → t.col = s.col ∧
        (t.reg Reg.OUT_CNT_RXZERO).toNat = min ((s.reg Reg.OUT_CNT_RXZERO).toNat + 1) 0xFFFFFFFF)) ∧
  (∀ (n : Fin 4) (x : TdmIn) (y : SpdifFrame) (cycle : BitVec 12) (part : Byte) (s : State), x.di.length ≤ 1024 →
    s.clocked = false ∨ s.now = none →
      exec (.tdmPortFrame n x) s = .next s ∧ exec (.spdifRxFrame y) s = .next s ∧
        exec (.wclkInEdge cycle part) s = .next s) ∧
  (∀ (cycle : BitVec 12) (part : Byte) (s : State), s.clocked = true → s.now.isSome = true →
    let pos := 256 * cycle.toNat + part.toNat
    let time := s.timeAt (min pos (256 * s.mck.interval)) (256 * s.mck.interval)
    ∃ t, exec (.wclkInEdge cycle part) s = .next t ∧ t = { s with mck := { s.mck with cands := t.mck.cands } } ∧
      (∀ r, r ≠ 0 → t.cand r = s.cand r) ∧
      ((s.cand 0).edges = [] → t.cand 0 = { s.cand 0 with edges := [(0, time)], pos := some pos }) ∧
      (∀ e l, (s.cand 0).edges = e :: l →
        let n := s.framesIn (time - e.2)
        (n = 0 → t.cand 0 = { s.cand 0 with extra := true, broke := time }) ∧
        (n ≠ 0 → (t.cand 0).edges.head? = some (e.1 + n, time) ∧ (t.cand 0).pos = some pos ∧
          (t.cand 0).skipped = max (s.cand 0).skipped (n - 1) ∧ (t.cand 0).extra = (s.cand 0).extra ∧
          (t.cand 0).late = 0 ∧ (n ≠ 1 → (t.cand 0).broke = time) ∧
          (t.cand 0).measured = (s.edgeRate (t.cand 0).edges).isSome ∧
          ∀ y, s.edgeRate (t.cand 0).edges = some y → (t.cand 0).yr = y))) ∧
  (∀ (r : Fin 5) (lock : Bool) (rate : BitVec 4) (cycle : BitVec 12) (part : Byte) (s : State), s.awake = true →
    let pos : Nat := 256 * cycle.toNat + part.toNat
    let time := s.timeAt (min pos (256 * s.mck.interval)) (256 * s.mck.interval)
    (∃ t, exec (.spdifLockChange lock rate cycle part) s = .next t ∧
      t = { s with csr := t.csr, mck := { s.mck with cands := t.mck.cands } } ∧
      t.rb Reg.OUT_SPDIF_RX 0 = lock ∧ t.rf Reg.OUT_SPDIF_RX 7 4 = (if lock then rate.toNat else 0) ∧
      (∀ a, a ≠ Reg.OUT_SPDIF_RX → t.reg a = s.reg a) ∧ (∀ x, x ≠ 1 → t.cand x = s.cand x) ∧
      t.cand 1 = { s.cand 1 with edges := [], pos := none, yr := 0, measured := false, broke := time }) ∧
    (s.rb Reg.MCK_CTRL 0 = true → s.candOk r.val = true → refSecond ≤ 5 * (time - (s.cand r.val).broke) →
      ∃ t, exec (.candidateQualify r cycle part) s = .next t ∧ t = { s with mck := { s.mck with cands := t.mck.cands } } ∧
        t.cand r.val = { s.cand r.val with qualified := true } ∧ ∀ x, x ≠ r.val → t.cand x = s.cand x) ∧
    (s.rb Reg.MCK_CTRL 0 = false ∨ s.candOk r.val = false ∨ 5 * (time - (s.cand r.val).broke) < refSecond →
      exec (.candidateQualify r cycle part) s = .next s)) ∧
  (∀ (r : Fin 5) (lock : Bool) (rate : BitVec 4) (cycle : BitVec 12) (part : Byte) (s : State), s.awake = false →
    exec (.spdifLockChange lock rate cycle part) s = .next s ∧ exec (.candidateQualify r cycle part) s = .next s)

/-! ### Accesses to tables and windows -/

/-- Accesses by address. A 32-bit write of a node or string table (R254, R509): its owner's is stored and its node or
string is no longer undefined, a word in a transaction's write set is refused with cause 6 (R534), and that of another
with cause 1; it ends SLEEP (R614). A memory request on BAR0 is the register access at 0x0700_0000 plus its offset (R479),
one on BAR2 the access at the device address (R480): 8 bytes of a Wave Store bank are stored or read by the owner's
port (R340, R359), and refused, recorded and counted otherwise; a write of the register blocks is refused, and one past
them has cause 3 (R480, R652). No request comes from a link that is down; one in D3hot is an
unsupported request, noted and signalled as its severity and masks have it (R476, R501; log entry 35); one that
must wait, or comes after a write that waits, is kept in order (R335, R344, R482). (The model's choices in it: log entries 17
and 19.) -/
def Obligations.Accesses : Prop :=
  (∀ (q : Req) (a : Nat) (v : Dword) (s : State), s.arrives q a = true → tableWord a = true → a % 4 = 0 →
    ∃ t, exec (.nodeTableWrite q a 4 v) s = .next t ∧
      t.phase = (if s.phase = .sleep then .run else s.phase) ∧
      (s.tableMay (Req.agent q) a = true → s.inWriteSet none a = false →
        t = { s with phase := t.phase, csr := t.csr, mem := t.mem, parts := t.parts, slots := t.slots, resp := {} } ∧
        t.word a = v.setWidth 32 ∧ ∀ c, c < a ∨ a + 4 ≤ c → t.byte c = s.byte c) ∧
      (s.tableMay (Req.agent q) a = false ∨ s.inWriteSet none a = true →
        t = { s with phase := t.phase, csr := t.csr, ports := t.ports, resp := { cause := if s.inWriteSet none a then 6 else 1 } })) ∧
  (∀ (p : Port) (bar2 : Bool) (m : MemReq) (s : State), m.ok (if bar2 then 0x10000000 else 0x200000) = true →
    let c : Instr := if bar2 then .bar2Request p m else .bar0Request p m
    let h := s.port (Port.ix p)
    let u := s.setPort (Port.ix p) h.wake
    (h.link.up = false → exec c s = .next s) ∧
    (h.link.up = true → h.d3hot = true →
      let fatal := bit (h.aerWord 0x10C) 20
      let masked := bit (h.aerWord 0x108) 20
      let on := fun (n : Nat) => h.cfgBit 0x04 8 || (h.cfgBit 0x78 n && h.cfgBit 0x78 3)
      ∃ t, exec c s = .next t ∧ t = { s with ports := t.ports, draw := t.draw } ∧
        (∀ o, o ≠ Port.ix p → t.port o = s.port o) ∧ (t.port (Port.ix p)).cfgBit 0x78 19 = true ∧
        (fatal = false → m.isWrite = false → (t.port (Port.ix p)).cfgBit 0x78 16 = true ∧
          bit ((t.port (Port.ix p)).aerWord 0x110) 13 = true ∧ (t.port (Port.ix p)).out =
            h.out ++ if bit (h.aerWord 0x114) 13 = false ∧ h.cfgBit 0x78 0 = true ∧ h.cfgBit 0x78 3 = true
              then [.errCor] else []) ∧
        (fatal = false → m.isWrite = true → (t.port (Port.ix p)).cfgBit 0x78 17 = true ∧
          bit ((t.port (Port.ix p)).aerWord 0x104) 20 = true ∧
          (t.port (Port.ix p)).out = h.out ++ if masked = false ∧ on 1 = true then [.errNonfatal] else []) ∧
        (fatal = true → (t.port (Port.ix p)).cfgBit 0x78 18 = true ∧
          bit ((t.port (Port.ix p)).aerWord 0x104) 20 = true ∧
          (t.port (Port.ix p)).out = h.out ++ if masked = false ∧ on 2 = true then [.errFatal] else [])) ∧
    (s.portTakes p = true →
      s.stalled.any (fun e => decide (e.1 = p) && e.2.2.isWrite) = true ∨ s.requestStalls p bar2 m = true →
      exec c s = .next { u with stalled := s.stalled ++ [(p, bar2, m)] })) ∧
  (∀ (p : Port) (off : Nat) (w : Word) (s : State), off + 4 ≤ 0x200000 → off % 4 = 0 → s.awake = true →
    let u := s.setPort (Port.ix p) (s.port (Port.ix p)).wake
    s.portTakes p = true → s.posted = [] → s.stalled.any (fun e => decide (e.1 = p) && e.2.2.isWrite) = false →
    exec (.bar0Request p ⟨true, off, (List.range 4).map fun i => some (w.extractLsb' (8 * i) 8)⟩) s =
      .next { u.put32 (Port.req p) (0x07000000 + off) w with pending := s.pending } ∧
    (let r := u.regReadWord (Port.req p) (0x07000000 + off) false
     r.2.1 = 0 →
      exec (.bar0Request p ⟨false, off, List.replicate 4 (some 0)⟩) s =
        .next { r.2.2 with pending := s.pending, resp := { bytes := toLE r.1.toNat 4 } })) ∧
  (∀ (p : Port) (off : Nat) (w : Word) (s : State), 0x07000000 ≤ off → off + 4 ≤ 0x07200000 → off % 4 = 0 →
    s.portTakes p = true → s.posted = [] → s.stalled.any (fun e => decide (e.1 = p) && e.2.2.isWrite) = false →
    ∃ t, exec (.bar2Request p ⟨true, off, (List.range 4).map fun i => some (w.extractLsb' (8 * i) 8)⟩) s = .next t ∧
      t = { s with csr := t.csr, ports := t.ports, resp := { cause := if 0x07170000 ≤ off then 3 else 1 } }) ∧
  (∀ (p : Port) (off : Nat) (d : Dword) (s : State), off < 0x04000000 → off % 8 = 0 →
    let b := bankOf off
    let mine := s.wsOwner b = Port.ix p + 1
    s.portTakes p = true → s.posted = [] → s.stalled.any (fun e => decide (e.1 = p) && e.2.2.isWrite) = false →
    s.wsStalls (Port.ix p + 1) b = false →
    (∃ t, exec (.bar2Request p ⟨false, off, List.replicate 8 (some 0)⟩) s = .next t ∧
      t = { s with csr := t.csr, ports := t.ports, wsAcc := t.wsAcc, draw := t.draw, resp := t.resp } ∧
      (mine → s.wsSealed b = false → t.resp = { bytes := (List.range 8).map fun i => s.byte (off + i) }) ∧
      (s.wsSealed b = true → t.resp = { bytes := List.replicate 8 0 } ∧ t.csr = s.csr) ∧
      (¬mine → s.wsSealed b = false → t.resp = { cause := 1, bytes := List.replicate 8 0 } ∧
        (t.reg (Reg.WS_CNT_REFUSED b)).toNat = min ((s.reg (Reg.WS_CNT_REFUSED b)).toNat + 1) 0xFFFFFFFF)) ∧
    (∃ t, exec (.bar2Request p ⟨true, off, (List.range 8).map fun i => some (d.extractLsb' (8 * i) 8)⟩) s = .next t ∧
      t = { s with csr := t.csr, ports := t.ports, wsAcc := t.wsAcc, draw := t.draw, mem := t.mem, resp := t.resp } ∧
      (∀ c, c < off ∨ off + 8 ≤ c → t.byte c = s.byte c) ∧
      (mine → s.wsSealed b = false → t.resp = {} ∧ ∀ i, i < 8 → t.byte (off + i) = d.extractLsb' (8 * i) 8) ∧
      (mine → s.wsSealed b = true → t.resp = { cause := 6 } ∧ t.mem = s.mem ∧
        t.reg (Reg.WS_CNT_REFUSED b) = s.reg (Reg.WS_CNT_REFUSED b)) ∧
      (¬mine → (s.wsFeed b = false ∨ s.wsOwner b < 8 ∨ s.wsFrom b ≠ Port.ix p + 1) →
        t.resp = { cause := 1 } ∧ t.mem = s.mem ∧
        (t.reg (Reg.WS_CNT_REFUSED b)).toNat = min ((s.reg (Reg.WS_CNT_REFUSED b)).toNat + 1) 0xFFFFFFFF)))

end Statements
end

