-- ==== Sys2Proof/Laws/Table.lean ====
section
/-! SUPPORT. The laws of the sparse tables: what a lookup gives after a store, and that every operation keeps the
canonical form. -/

namespace Sys2Proof.Machine

variable {α : Type}

/-- The canonical form, as rising indices and entries that are not defaults. -/
theorem twf_iff [DecidableEq α] (d : Nat → α) (t : Tbl α) :
    twf d t = true ↔ t.Pairwise (fun x y => x.1 < y.1) ∧ ∀ e ∈ t, e.2 ≠ d e.1 := by
  induction t with
  | nil => simp [twf]
  | cons e t ih =>
    obtain ⟨i, v⟩ := e
    cases t with
    | nil => simp [twf]
    | cons f l =>
      obtain ⟨j, w⟩ := f
      simp only [twf, Bool.and_eq_true, decide_eq_true_eq, ih, List.pairwise_cons, List.mem_cons]
      constructor
      · rintro ⟨⟨hv, hij⟩, ⟨hj, hl⟩, hd⟩
        refine ⟨⟨?_, hj, hl⟩, ?_⟩
        · rintro e (rfl | he)
          · exact hij
          · exact Nat.lt_trans hij (hj e he)
        · rintro e (rfl | he)
          · exact hv
          · exact hd e he
      · rintro ⟨⟨hi, hj, hl⟩, hd⟩
        exact ⟨⟨hd (i, v) (Or.inl rfl), hi (j, w) (Or.inl rfl)⟩, ⟨hj, hl⟩, fun e he => hd e (Or.inr he)⟩

@[simp] theorem tget_nil (d : α) (k : Nat) : tget d [] k = d := rfl

theorem tget_tins_same (d v : α) (t : Tbl α) (k : Nat) : tget d (tins k v t) k = v := by
  induction t with
  | nil => simp [tins, tget]
  | cons e t ih =>
    obtain ⟨i, w⟩ := e
    simp only [tins]
    split
    · simp only [tget]; rw [if_neg (by omega)]; exact ih
    · split <;> simp [tget]

theorem tget_tins_other (d v : α) (t : Tbl α) {k j : Nat} (h : j ≠ k) : tget d (tins k v t) j = tget d t j := by
  induction t with
  | nil => simp [tins, tget, Ne.symm h]
  | cons e t ih =>
    obtain ⟨i, w⟩ := e
    simp only [tins]
    split
    · simp only [tget, ih]
    · split
      · subst i; simp [tget, Ne.symm h]
      · simp [tget, Ne.symm h]

theorem tget_tdel_same (d : α) (t : Tbl α) (k : Nat) : tget d (tdel k t) k = d := by
  induction t with
  | nil => rfl
  | cons e t ih =>
    obtain ⟨i, w⟩ := e
    simp only [tdel]
    split
    · exact ih
    · next h => simp only [tget, if_neg h]; exact ih

theorem tget_tdel_other (d : α) (t : Tbl α) {k j : Nat} (h : j ≠ k) : tget d (tdel k t) j = tget d t j := by
  induction t with
  | nil => rfl
  | cons e t ih =>
    obtain ⟨i, w⟩ := e
    simp only [tdel]
    split
    · next hi => subst i; simp only [tget, if_neg (Ne.symm h)]; exact ih
    · simp only [tget, ih]

/-- A stored entry is what its index holds. -/
@[simp] theorem tget_tput_same [DecidableEq α] (d v : α) (t : Tbl α) (k : Nat) : tget d (tput d t k v) k = v := by
  unfold tput
  split
  · next h => rw [tget_tdel_same, h]
  · exact tget_tins_same d v t k

/-- A store leaves every other index alone. -/
theorem tget_tput_other [DecidableEq α] (d v : α) (t : Tbl α) {k j : Nat} (h : j ≠ k) :
    tget d (tput d t k v) j = tget d t j := by
  unfold tput
  split
  · exact tget_tdel_other d t h
  · exact tget_tins_other d v t h

/-- A store leaves every other index alone, whatever the default it is compared with. -/
theorem tget_tput_ne [DecidableEq α] (d d' v : α) (t : Tbl α) {k j : Nat} (h : j ≠ k) :
    tget d (tput d' t k v) j = tget d t j := by
  unfold tput
  split
  · exact tget_tdel_other d t h
  · exact tget_tins_other d v t h

/-- A cleared index holds the default, and every other index what it held. -/
theorem tget_tclear (d : α) (t : Tbl α) (a n k : Nat) :
    tget d (tclear t a n) k = if a ≤ k ∧ k < a + n then d else tget d t k := by
  induction t with
  | nil => simp [tclear]
  | cons e t ih =>
    obtain ⟨i, w⟩ := e
    simp only [tclear] at ih
    simp only [tclear, List.filter_cons]
    split
    · next h =>
      simp only [decide_eq_true_eq] at h
      simp only [tget]
      split
      · next hik => subst i; rw [if_neg h]
      · exact ih
    · next h =>
      simp only [decide_eq_true_eq, Classical.not_not] at h
      rw [ih]
      simp only [tget]
      split
      · rfl
      · next hk => rw [if_neg]; rintro rfl; exact hk h

/-! ### Membership and order -/

theorem mem_tins {k : Nat} {v : α} {t : Tbl α} {e : Nat × α} (h : e ∈ tins k v t) : e = (k, v) ∨ e ∈ t := by
  induction t with
  | nil => simpa [tins] using h
  | cons f t ih =>
    obtain ⟨i, w⟩ := f
    simp only [tins] at h
    split at h
    · rcases List.mem_cons.1 h with rfl | h
      · exact Or.inr (List.mem_cons_self ..)
      · exact (ih h).imp_right (List.mem_cons_of_mem _)
    · split at h
      · exact (List.mem_cons.1 h).imp_right (List.mem_cons_of_mem _)
      · exact List.mem_cons.1 h

theorem mem_tdel {k : Nat} {t : Tbl α} {e : Nat × α} (h : e ∈ tdel k t) : e ∈ t := by
  induction t with
  | nil => exact h
  | cons f t ih =>
    simp only [tdel] at h
    split at h
    · exact List.mem_cons_of_mem _ (ih h)
    · rcases List.mem_cons.1 h with rfl | h
      · exact List.mem_cons_self ..
      · exact List.mem_cons_of_mem _ (ih h)

theorem pairwise_tins {k : Nat} {v : α} {t : Tbl α} (h : t.Pairwise (fun x y => x.1 < y.1)) :
    (tins k v t).Pairwise (fun x y => x.1 < y.1) := by
  induction t with
  | nil => simp [tins]
  | cons f t ih =>
    obtain ⟨i, w⟩ := f
    have h1 := (List.pairwise_cons.1 h).1
    have h2 := (List.pairwise_cons.1 h).2
    simp only [tins]
    split
    · next hik =>
      refine List.pairwise_cons.2 ⟨fun e he => ?_, ih h2⟩
      rcases mem_tins he with rfl | he
      · exact hik
      · exact h1 e he
    · split
      · next hik => subst i; exact List.pairwise_cons.2 ⟨h1, h2⟩
      · next hn hne =>
        refine List.pairwise_cons.2 ⟨fun e he => ?_, h⟩
        rcases List.mem_cons.1 he with rfl | he
        · show k < i; omega
        · have h3 : i < e.1 := h1 e he
          show k < e.1; omega

theorem pairwise_tdel {k : Nat} {t : Tbl α} (h : t.Pairwise (fun x y => x.1 < y.1)) :
    (tdel k t).Pairwise (fun x y => x.1 < y.1) := by
  induction t with
  | nil => exact h
  | cons f t ih =>
    have h1 := (List.pairwise_cons.1 h).1
    have h2 := ih (List.pairwise_cons.1 h).2
    simp only [tdel]
    split
    · exact h2
    · exact List.pairwise_cons.2 ⟨fun e he => h1 e (mem_tdel he), h2⟩

/-- A store keeps the canonical form. -/
theorem twf_tput [DecidableEq α] (d : Nat → α) {t : Tbl α} (h : twf d t = true) (k : Nat) (v : α) :
    twf d (tput (d k) t k v) = true := by
  rw [twf_iff] at h ⊢
  unfold tput
  split
  · exact ⟨pairwise_tdel h.1, fun e he => h.2 e (mem_tdel he)⟩
  · next hv =>
    refine ⟨pairwise_tins h.1, fun e he => ?_⟩
    rcases mem_tins he with rfl | he
    · exact hv
    · exact h.2 e he

/-- A filter keeps the canonical form. -/
theorem twf_filter [DecidableEq α] (d : Nat → α) {t : Tbl α} (h : twf d t = true) (p : Nat × α → Bool) :
    twf d (t.filter p) = true := by
  rw [twf_iff] at h ⊢
  exact ⟨h.1.filter p, fun e he => h.2 e (List.mem_filter.1 he).1⟩

/-- A clear keeps the canonical form. -/
theorem twf_tclear [DecidableEq α] (d : Nat → α) {t : Tbl α} (h : twf d t = true) (a n : Nat) :
    twf d (tclear t a n) = true := twf_filter d h _

end Sys2Proof.Machine
end

