-- ==== Sys2Proof/Laws/State.lean ====
section
/-! SUPPORT. What each update of the state leaves of each of its fields, and what a lookup gives after an update. -/

set_option Elab.async false

namespace Sys2Proof.Machine

variable (s : State)

/-! ### A register word is stored -/

@[simp] theorem setReg_pending (a : Nat) (w : Word) : (s.setReg a w).pending = s.pending := rfl
@[simp] theorem setReg_variant (a : Nat) (w : Word) : (s.setReg a w).variant = s.variant := rfl
@[simp] theorem setReg_phase (a : Nat) (w : Word) : (s.setReg a w).phase = s.phase := rfl
@[simp] theorem setReg_hidden (a : Nat) (w : Word) : (s.setReg a w).hidden = s.hidden := rfl
@[simp] theorem setReg_latch (a : Nat) (w : Word) : (s.setReg a w).latch = s.latch := rfl
@[simp] theorem setReg_mem (a : Nat) (w : Word) : (s.setReg a w).mem = s.mem := rfl
@[simp] theorem setReg_resp (a : Nat) (w : Word) : (s.setReg a w).resp = s.resp := rfl
@[simp] theorem setReg_arbLast (a : Nat) (w : Word) : (s.setReg a w).arbLast = s.arbLast := rfl
@[simp] theorem setReg_now (a : Nat) (w : Word) : (s.setReg a w).now = s.now := rfl
@[simp] theorem setReg_refCyc (a : Nat) (w : Word) : (s.setReg a w).refCyc = s.refCyc := rfl
@[simp] theorem setReg_refNow (a : Nat) (w : Word) : (s.setReg a w).refNow = s.refNow := rfl
@[simp] theorem setReg_draw (a : Nat) (w : Word) : (s.setReg a w).draw = s.draw := rfl
@[simp] theorem setReg_heap (a : Nat) (w : Word) : (s.setReg a w).heap = s.heap := rfl
@[simp] theorem setReg_heapSeq (a : Nat) (w : Word) : (s.setReg a w).heapSeq = s.heapSeq := rfl
@[simp] theorem setReg_hmap (a : Nat) (w : Word) : (s.setReg a w).hmap = s.hmap := rfl
@[simp] theorem setReg_midi (a : Nat) (w : Word) : (s.setReg a w).midi = s.midi := rfl
@[simp] theorem setReg_paused (a : Nat) (w : Word) : (s.setReg a w).paused = s.paused := rfl
@[simp] theorem setReg_slots (a : Nat) (w : Word) : (s.setReg a w).slots = s.slots := rfl
@[simp] theorem setReg_tails (a : Nat) (w : Word) : (s.setReg a w).tails = s.tails := rfl
@[simp] theorem setReg_parts (a : Nat) (w : Word) : (s.setReg a w).parts = s.parts := rfl
@[simp] theorem setReg_ctxs (a : Nat) (w : Word) : (s.setReg a w).ctxs = s.ctxs := rfl
@[simp] theorem setReg_budget (a : Nat) (w : Word) : (s.setReg a w).budget = s.budget := rfl
@[simp] theorem setReg_progs (a : Nat) (w : Word) : (s.setReg a w).progs = s.progs := rfl
@[simp] theorem setReg_cores (a : Nat) (w : Word) : (s.setReg a w).cores = s.cores := rfl
@[simp] theorem setReg_intake (a : Nat) (w : Word) : (s.setReg a w).intake = s.intake := rfl
@[simp] theorem setReg_readySeq (a : Nat) (w : Word) : (s.setReg a w).readySeq = s.readySeq := rfl
@[simp] theorem setReg_runs (a : Nat) (w : Word) : (s.setReg a w).runs = s.runs := rfl
@[simp] theorem setReg_taskOn (a : Nat) (w : Word) : (s.setReg a w).taskOn = s.taskOn := rfl
@[simp] theorem setReg_pubs (a : Nat) (w : Word) : (s.setReg a w).pubs = s.pubs := rfl
@[simp] theorem setReg_col (a : Nat) (w : Word) : (s.setReg a w).col = s.col := rfl
@[simp] theorem setReg_dac (a : Nat) (w : Word) : (s.setReg a w).dac = s.dac := rfl
@[simp] theorem setReg_clrPin (a : Nat) (w : Word) : (s.setReg a w).clrPin = s.clrPin := rfl
@[simp] theorem setReg_mck (a : Nat) (w : Word) : (s.setReg a w).mck = s.mck := rfl
@[simp] theorem setReg_ports (a : Nat) (w : Word) : (s.setReg a w).ports = s.ports := rfl
@[simp] theorem setReg_txns (a : Nat) (w : Word) : (s.setReg a w).txns = s.txns := rfl
@[simp] theorem setReg_commitSeq (a : Nat) (w : Word) : (s.setReg a w).commitSeq = s.commitSeq := rfl
@[simp] theorem setReg_sems (a : Nat) (w : Word) : (s.setReg a w).sems = s.sems := rfl
@[simp] theorem setReg_wsPend (a : Nat) (w : Word) : (s.setReg a w).wsPend = s.wsPend := rfl
@[simp] theorem setReg_wsBusy (a : Nat) (w : Word) : (s.setReg a w).wsBusy = s.wsBusy := rfl
@[simp] theorem setReg_wsAcc (a : Nat) (w : Word) : (s.setReg a w).wsAcc = s.wsAcc := rfl
@[simp] theorem setReg_stalled (a : Nat) (w : Word) : (s.setReg a w).stalled = s.stalled := rfl
@[simp] theorem setReg_uarts (a : Nat) (w : Word) : (s.setReg a w).uarts = s.uarts := rfl
@[simp] theorem setReg_chks (a : Nat) (w : Word) : (s.setReg a w).chks = s.chks := rfl
@[simp] theorem setReg_sec (a : Nat) (w : Word) : (s.setReg a w).sec = s.sec := rfl
@[simp] theorem setReg_nvm (a : Nat) (w : Word) : (s.setReg a w).nvm = s.nvm := rfl
@[simp] theorem setReg_age (a : Nat) (w : Word) : (s.setReg a w).age = s.age := rfl
@[simp] theorem setReg_stgs (a : Nat) (w : Word) : (s.setReg a w).stgs = s.stgs := rfl
@[simp] theorem setReg_psuEn (a : Nat) (w : Word) : (s.setReg a w).psuEn = s.psuEn := rfl
@[simp] theorem setReg_sagActed (a : Nat) (w : Word) : (s.setReg a w).sagActed = s.sagActed := rfl
@[simp] theorem setReg_sagHeld (a : Nat) (w : Word) : (s.setReg a w).sagHeld = s.sagHeld := rfl
@[simp] theorem setReg_mute (a : Nat) (w : Word) : (s.setReg a w).mute = s.mute := rfl
@[simp] theorem setReg_sagRelease (a : Nat) (w : Word) : (s.setReg a w).sagRelease = s.sagRelease := rfl
@[simp] theorem setReg_sagCut (a : Nat) (w : Word) : (s.setReg a w).sagCut = s.sagCut := rfl
@[simp] theorem setReg_posted (a : Nat) (w : Word) : (s.setReg a w).posted = s.posted := rfl
@[simp] theorem setReg_slotResp (a : Nat) (w : Word) : (s.setReg a w).slotResp = s.slotResp := rfl
@[simp] theorem setReg_refAll (a : Nat) (w : Word) : (s.setReg a w).refAll = s.refAll := rfl
@[simp] theorem setReg_refEnd (a : Nat) (w : Word) : (s.setReg a w).refEnd = s.refEnd := rfl
@[simp] theorem setReg_strobes (a : Nat) (w : Word) : (s.setReg a w).strobes = s.strobes := rfl
@[simp] theorem setReg_evals (a : Nat) (w : Word) : (s.setReg a w).evals = s.evals := rfl
@[simp] theorem setReg_clrSeen (a : Nat) (w : Word) : (s.setReg a w).clrSeen = s.clrSeen := rfl

/-! ### A host port is stored -/

@[simp] theorem setPort_pending (p : Nat) (x : HostPort) : (s.setPort p x).pending = s.pending := rfl
@[simp] theorem setPort_variant (p : Nat) (x : HostPort) : (s.setPort p x).variant = s.variant := rfl
@[simp] theorem setPort_phase (p : Nat) (x : HostPort) : (s.setPort p x).phase = s.phase := rfl
@[simp] theorem setPort_csr (p : Nat) (x : HostPort) : (s.setPort p x).csr = s.csr := rfl
@[simp] theorem setPort_hidden (p : Nat) (x : HostPort) : (s.setPort p x).hidden = s.hidden := rfl
@[simp] theorem setPort_latch (p : Nat) (x : HostPort) : (s.setPort p x).latch = s.latch := rfl
@[simp] theorem setPort_mem (p : Nat) (x : HostPort) : (s.setPort p x).mem = s.mem := rfl
@[simp] theorem setPort_resp (p : Nat) (x : HostPort) : (s.setPort p x).resp = s.resp := rfl
@[simp] theorem setPort_arbLast (p : Nat) (x : HostPort) : (s.setPort p x).arbLast = s.arbLast := rfl
@[simp] theorem setPort_now (p : Nat) (x : HostPort) : (s.setPort p x).now = s.now := rfl
@[simp] theorem setPort_refCyc (p : Nat) (x : HostPort) : (s.setPort p x).refCyc = s.refCyc := rfl
@[simp] theorem setPort_refNow (p : Nat) (x : HostPort) : (s.setPort p x).refNow = s.refNow := rfl
@[simp] theorem setPort_draw (p : Nat) (x : HostPort) : (s.setPort p x).draw = s.draw := rfl
@[simp] theorem setPort_heap (p : Nat) (x : HostPort) : (s.setPort p x).heap = s.heap := rfl
@[simp] theorem setPort_heapSeq (p : Nat) (x : HostPort) : (s.setPort p x).heapSeq = s.heapSeq := rfl
@[simp] theorem setPort_hmap (p : Nat) (x : HostPort) : (s.setPort p x).hmap = s.hmap := rfl
@[simp] theorem setPort_midi (p : Nat) (x : HostPort) : (s.setPort p x).midi = s.midi := rfl
@[simp] theorem setPort_paused (p : Nat) (x : HostPort) : (s.setPort p x).paused = s.paused := rfl
@[simp] theorem setPort_slots (p : Nat) (x : HostPort) : (s.setPort p x).slots = s.slots := rfl
@[simp] theorem setPort_tails (p : Nat) (x : HostPort) : (s.setPort p x).tails = s.tails := rfl
@[simp] theorem setPort_parts (p : Nat) (x : HostPort) : (s.setPort p x).parts = s.parts := rfl
@[simp] theorem setPort_ctxs (p : Nat) (x : HostPort) : (s.setPort p x).ctxs = s.ctxs := rfl
@[simp] theorem setPort_budget (p : Nat) (x : HostPort) : (s.setPort p x).budget = s.budget := rfl
@[simp] theorem setPort_progs (p : Nat) (x : HostPort) : (s.setPort p x).progs = s.progs := rfl
@[simp] theorem setPort_cores (p : Nat) (x : HostPort) : (s.setPort p x).cores = s.cores := rfl
@[simp] theorem setPort_intake (p : Nat) (x : HostPort) : (s.setPort p x).intake = s.intake := rfl
@[simp] theorem setPort_readySeq (p : Nat) (x : HostPort) : (s.setPort p x).readySeq = s.readySeq := rfl
@[simp] theorem setPort_runs (p : Nat) (x : HostPort) : (s.setPort p x).runs = s.runs := rfl
@[simp] theorem setPort_taskOn (p : Nat) (x : HostPort) : (s.setPort p x).taskOn = s.taskOn := rfl
@[simp] theorem setPort_pubs (p : Nat) (x : HostPort) : (s.setPort p x).pubs = s.pubs := rfl
@[simp] theorem setPort_col (p : Nat) (x : HostPort) : (s.setPort p x).col = s.col := rfl
@[simp] theorem setPort_dac (p : Nat) (x : HostPort) : (s.setPort p x).dac = s.dac := rfl
@[simp] theorem setPort_clrPin (p : Nat) (x : HostPort) : (s.setPort p x).clrPin = s.clrPin := rfl
@[simp] theorem setPort_mck (p : Nat) (x : HostPort) : (s.setPort p x).mck = s.mck := rfl
@[simp] theorem setPort_txns (p : Nat) (x : HostPort) : (s.setPort p x).txns = s.txns := rfl
@[simp] theorem setPort_commitSeq (p : Nat) (x : HostPort) : (s.setPort p x).commitSeq = s.commitSeq := rfl
@[simp] theorem setPort_sems (p : Nat) (x : HostPort) : (s.setPort p x).sems = s.sems := rfl
@[simp] theorem setPort_wsPend (p : Nat) (x : HostPort) : (s.setPort p x).wsPend = s.wsPend := rfl
@[simp] theorem setPort_wsBusy (p : Nat) (x : HostPort) : (s.setPort p x).wsBusy = s.wsBusy := rfl
@[simp] theorem setPort_wsAcc (p : Nat) (x : HostPort) : (s.setPort p x).wsAcc = s.wsAcc := rfl
@[simp] theorem setPort_stalled (p : Nat) (x : HostPort) : (s.setPort p x).stalled = s.stalled := rfl
@[simp] theorem setPort_uarts (p : Nat) (x : HostPort) : (s.setPort p x).uarts = s.uarts := rfl
@[simp] theorem setPort_chks (p : Nat) (x : HostPort) : (s.setPort p x).chks = s.chks := rfl
@[simp] theorem setPort_sec (p : Nat) (x : HostPort) : (s.setPort p x).sec = s.sec := rfl
@[simp] theorem setPort_nvm (p : Nat) (x : HostPort) : (s.setPort p x).nvm = s.nvm := rfl
@[simp] theorem setPort_age (p : Nat) (x : HostPort) : (s.setPort p x).age = s.age := rfl
@[simp] theorem setPort_stgs (p : Nat) (x : HostPort) : (s.setPort p x).stgs = s.stgs := rfl
@[simp] theorem setPort_psuEn (p : Nat) (x : HostPort) : (s.setPort p x).psuEn = s.psuEn := rfl
@[simp] theorem setPort_sagActed (p : Nat) (x : HostPort) : (s.setPort p x).sagActed = s.sagActed := rfl
@[simp] theorem setPort_sagHeld (p : Nat) (x : HostPort) : (s.setPort p x).sagHeld = s.sagHeld := rfl
@[simp] theorem setPort_mute (p : Nat) (x : HostPort) : (s.setPort p x).mute = s.mute := rfl
@[simp] theorem setPort_sagRelease (p : Nat) (x : HostPort) : (s.setPort p x).sagRelease = s.sagRelease := rfl
@[simp] theorem setPort_sagCut (p : Nat) (x : HostPort) : (s.setPort p x).sagCut = s.sagCut := rfl
@[simp] theorem setPort_posted (p : Nat) (x : HostPort) : (s.setPort p x).posted = s.posted := rfl
@[simp] theorem setPort_slotResp (p : Nat) (x : HostPort) : (s.setPort p x).slotResp = s.slotResp := rfl
@[simp] theorem setPort_refAll (p : Nat) (x : HostPort) : (s.setPort p x).refAll = s.refAll := rfl
@[simp] theorem setPort_refEnd (p : Nat) (x : HostPort) : (s.setPort p x).refEnd = s.refEnd := rfl
@[simp] theorem setPort_strobes (p : Nat) (x : HostPort) : (s.setPort p x).strobes = s.strobes := rfl
@[simp] theorem setPort_evals (p : Nat) (x : HostPort) : (s.setPort p x).evals = s.evals := rfl
@[simp] theorem setPort_clrSeen (p : Nat) (x : HostPort) : (s.setPort p x).clrSeen = s.clrSeen := rfl

@[simp] theorem setPort_port_same (p : Nat) (x : HostPort) : (s.setPort p x).port p = x := tget_tput_same ..
theorem setPort_port_other {p j : Nat} (h : j ≠ p) (x : HostPort) : (s.setPort p x).port j = s.port j :=
  tget_tput_other _ _ _ h

/-! ### A byte of memory is stored -/

@[simp] theorem setByte_pending (a : Nat) (b : Byte) : (s.setByte a b).pending = s.pending := rfl
@[simp] theorem setByte_variant (a : Nat) (b : Byte) : (s.setByte a b).variant = s.variant := rfl
@[simp] theorem setByte_phase (a : Nat) (b : Byte) : (s.setByte a b).phase = s.phase := rfl
@[simp] theorem setByte_csr (a : Nat) (b : Byte) : (s.setByte a b).csr = s.csr := rfl
@[simp] theorem setByte_hidden (a : Nat) (b : Byte) : (s.setByte a b).hidden = s.hidden := rfl
@[simp] theorem setByte_latch (a : Nat) (b : Byte) : (s.setByte a b).latch = s.latch := rfl
@[simp] theorem setByte_resp (a : Nat) (b : Byte) : (s.setByte a b).resp = s.resp := rfl
@[simp] theorem setByte_arbLast (a : Nat) (b : Byte) : (s.setByte a b).arbLast = s.arbLast := rfl
@[simp] theorem setByte_now (a : Nat) (b : Byte) : (s.setByte a b).now = s.now := rfl
@[simp] theorem setByte_refCyc (a : Nat) (b : Byte) : (s.setByte a b).refCyc = s.refCyc := rfl
@[simp] theorem setByte_refNow (a : Nat) (b : Byte) : (s.setByte a b).refNow = s.refNow := rfl
@[simp] theorem setByte_draw (a : Nat) (b : Byte) : (s.setByte a b).draw = s.draw := rfl
@[simp] theorem setByte_heap (a : Nat) (b : Byte) : (s.setByte a b).heap = s.heap := rfl
@[simp] theorem setByte_heapSeq (a : Nat) (b : Byte) : (s.setByte a b).heapSeq = s.heapSeq := rfl
@[simp] theorem setByte_hmap (a : Nat) (b : Byte) : (s.setByte a b).hmap = s.hmap := rfl
@[simp] theorem setByte_midi (a : Nat) (b : Byte) : (s.setByte a b).midi = s.midi := rfl
@[simp] theorem setByte_paused (a : Nat) (b : Byte) : (s.setByte a b).paused = s.paused := rfl
@[simp] theorem setByte_slots (a : Nat) (b : Byte) : (s.setByte a b).slots = s.slots := rfl
@[simp] theorem setByte_tails (a : Nat) (b : Byte) : (s.setByte a b).tails = s.tails := rfl
@[simp] theorem setByte_parts (a : Nat) (b : Byte) : (s.setByte a b).parts = s.parts := rfl
@[simp] theorem setByte_ctxs (a : Nat) (b : Byte) : (s.setByte a b).ctxs = s.ctxs := rfl
@[simp] theorem setByte_budget (a : Nat) (b : Byte) : (s.setByte a b).budget = s.budget := rfl
@[simp] theorem setByte_progs (a : Nat) (b : Byte) : (s.setByte a b).progs = s.progs := rfl
@[simp] theorem setByte_cores (a : Nat) (b : Byte) : (s.setByte a b).cores = s.cores := rfl
@[simp] theorem setByte_intake (a : Nat) (b : Byte) : (s.setByte a b).intake = s.intake := rfl
@[simp] theorem setByte_readySeq (a : Nat) (b : Byte) : (s.setByte a b).readySeq = s.readySeq := rfl
@[simp] theorem setByte_runs (a : Nat) (b : Byte) : (s.setByte a b).runs = s.runs := rfl
@[simp] theorem setByte_taskOn (a : Nat) (b : Byte) : (s.setByte a b).taskOn = s.taskOn := rfl
@[simp] theorem setByte_pubs (a : Nat) (b : Byte) : (s.setByte a b).pubs = s.pubs := rfl
@[simp] theorem setByte_col (a : Nat) (b : Byte) : (s.setByte a b).col = s.col := rfl
@[simp] theorem setByte_dac (a : Nat) (b : Byte) : (s.setByte a b).dac = s.dac := rfl
@[simp] theorem setByte_clrPin (a : Nat) (b : Byte) : (s.setByte a b).clrPin = s.clrPin := rfl
@[simp] theorem setByte_mck (a : Nat) (b : Byte) : (s.setByte a b).mck = s.mck := rfl
@[simp] theorem setByte_ports (a : Nat) (b : Byte) : (s.setByte a b).ports = s.ports := rfl
@[simp] theorem setByte_txns (a : Nat) (b : Byte) : (s.setByte a b).txns = s.txns := rfl
@[simp] theorem setByte_commitSeq (a : Nat) (b : Byte) : (s.setByte a b).commitSeq = s.commitSeq := rfl
@[simp] theorem setByte_sems (a : Nat) (b : Byte) : (s.setByte a b).sems = s.sems := rfl
@[simp] theorem setByte_wsPend (a : Nat) (b : Byte) : (s.setByte a b).wsPend = s.wsPend := rfl
@[simp] theorem setByte_wsBusy (a : Nat) (b : Byte) : (s.setByte a b).wsBusy = s.wsBusy := rfl
@[simp] theorem setByte_wsAcc (a : Nat) (b : Byte) : (s.setByte a b).wsAcc = s.wsAcc := rfl
@[simp] theorem setByte_stalled (a : Nat) (b : Byte) : (s.setByte a b).stalled = s.stalled := rfl
@[simp] theorem setByte_uarts (a : Nat) (b : Byte) : (s.setByte a b).uarts = s.uarts := rfl
@[simp] theorem setByte_chks (a : Nat) (b : Byte) : (s.setByte a b).chks = s.chks := rfl
@[simp] theorem setByte_sec (a : Nat) (b : Byte) : (s.setByte a b).sec = s.sec := rfl
@[simp] theorem setByte_nvm (a : Nat) (b : Byte) : (s.setByte a b).nvm = s.nvm := rfl
@[simp] theorem setByte_age (a : Nat) (b : Byte) : (s.setByte a b).age = s.age := rfl
@[simp] theorem setByte_stgs (a : Nat) (b : Byte) : (s.setByte a b).stgs = s.stgs := rfl
@[simp] theorem setByte_psuEn (a : Nat) (b : Byte) : (s.setByte a b).psuEn = s.psuEn := rfl
@[simp] theorem setByte_sagActed (a : Nat) (b : Byte) : (s.setByte a b).sagActed = s.sagActed := rfl
@[simp] theorem setByte_sagHeld (a : Nat) (b : Byte) : (s.setByte a b).sagHeld = s.sagHeld := rfl
@[simp] theorem setByte_mute (a : Nat) (b : Byte) : (s.setByte a b).mute = s.mute := rfl
@[simp] theorem setByte_sagRelease (a : Nat) (b : Byte) : (s.setByte a b).sagRelease = s.sagRelease := rfl
@[simp] theorem setByte_sagCut (a : Nat) (b : Byte) : (s.setByte a b).sagCut = s.sagCut := rfl
@[simp] theorem setByte_posted (a : Nat) (b : Byte) : (s.setByte a b).posted = s.posted := rfl
@[simp] theorem setByte_slotResp (a : Nat) (b : Byte) : (s.setByte a b).slotResp = s.slotResp := rfl
@[simp] theorem setByte_refAll (a : Nat) (b : Byte) : (s.setByte a b).refAll = s.refAll := rfl
@[simp] theorem setByte_refEnd (a : Nat) (b : Byte) : (s.setByte a b).refEnd = s.refEnd := rfl
@[simp] theorem setByte_strobes (a : Nat) (b : Byte) : (s.setByte a b).strobes = s.strobes := rfl
@[simp] theorem setByte_evals (a : Nat) (b : Byte) : (s.setByte a b).evals = s.evals := rfl
@[simp] theorem setByte_clrSeen (a : Nat) (b : Byte) : (s.setByte a b).clrSeen = s.clrSeen := rfl

/-! ### Cleared memory is stored -/

@[simp] theorem clearBytes_pending (a n : Nat) : (s.clearBytes a n).pending = s.pending := rfl
@[simp] theorem clearBytes_variant (a n : Nat) : (s.clearBytes a n).variant = s.variant := rfl
@[simp] theorem clearBytes_phase (a n : Nat) : (s.clearBytes a n).phase = s.phase := rfl
@[simp] theorem clearBytes_csr (a n : Nat) : (s.clearBytes a n).csr = s.csr := rfl
@[simp] theorem clearBytes_hidden (a n : Nat) : (s.clearBytes a n).hidden = s.hidden := rfl
@[simp] theorem clearBytes_latch (a n : Nat) : (s.clearBytes a n).latch = s.latch := rfl
@[simp] theorem clearBytes_resp (a n : Nat) : (s.clearBytes a n).resp = s.resp := rfl
@[simp] theorem clearBytes_arbLast (a n : Nat) : (s.clearBytes a n).arbLast = s.arbLast := rfl
@[simp] theorem clearBytes_now (a n : Nat) : (s.clearBytes a n).now = s.now := rfl
@[simp] theorem clearBytes_refCyc (a n : Nat) : (s.clearBytes a n).refCyc = s.refCyc := rfl
@[simp] theorem clearBytes_refNow (a n : Nat) : (s.clearBytes a n).refNow = s.refNow := rfl
@[simp] theorem clearBytes_draw (a n : Nat) : (s.clearBytes a n).draw = s.draw := rfl
@[simp] theorem clearBytes_heap (a n : Nat) : (s.clearBytes a n).heap = s.heap := rfl
@[simp] theorem clearBytes_heapSeq (a n : Nat) : (s.clearBytes a n).heapSeq = s.heapSeq := rfl
@[simp] theorem clearBytes_hmap (a n : Nat) : (s.clearBytes a n).hmap = s.hmap := rfl
@[simp] theorem clearBytes_midi (a n : Nat) : (s.clearBytes a n).midi = s.midi := rfl
@[simp] theorem clearBytes_paused (a n : Nat) : (s.clearBytes a n).paused = s.paused := rfl
@[simp] theorem clearBytes_slots (a n : Nat) : (s.clearBytes a n).slots = s.slots := rfl
@[simp] theorem clearBytes_tails (a n : Nat) : (s.clearBytes a n).tails = s.tails := rfl
@[simp] theorem clearBytes_parts (a n : Nat) : (s.clearBytes a n).parts = s.parts := rfl
@[simp] theorem clearBytes_ctxs (a n : Nat) : (s.clearBytes a n).ctxs = s.ctxs := rfl
@[simp] theorem clearBytes_budget (a n : Nat) : (s.clearBytes a n).budget = s.budget := rfl
@[simp] theorem clearBytes_progs (a n : Nat) : (s.clearBytes a n).progs = s.progs := rfl
@[simp] theorem clearBytes_cores (a n : Nat) : (s.clearBytes a n).cores = s.cores := rfl
@[simp] theorem clearBytes_intake (a n : Nat) : (s.clearBytes a n).intake = s.intake := rfl
@[simp] theorem clearBytes_readySeq (a n : Nat) : (s.clearBytes a n).readySeq = s.readySeq := rfl
@[simp] theorem clearBytes_runs (a n : Nat) : (s.clearBytes a n).runs = s.runs := rfl
@[simp] theorem clearBytes_taskOn (a n : Nat) : (s.clearBytes a n).taskOn = s.taskOn := rfl
@[simp] theorem clearBytes_pubs (a n : Nat) : (s.clearBytes a n).pubs = s.pubs := rfl
@[simp] theorem clearBytes_col (a n : Nat) : (s.clearBytes a n).col = s.col := rfl
@[simp] theorem clearBytes_dac (a n : Nat) : (s.clearBytes a n).dac = s.dac := rfl
@[simp] theorem clearBytes_clrPin (a n : Nat) : (s.clearBytes a n).clrPin = s.clrPin := rfl
@[simp] theorem clearBytes_mck (a n : Nat) : (s.clearBytes a n).mck = s.mck := rfl
@[simp] theorem clearBytes_ports (a n : Nat) : (s.clearBytes a n).ports = s.ports := rfl
@[simp] theorem clearBytes_txns (a n : Nat) : (s.clearBytes a n).txns = s.txns := rfl
@[simp] theorem clearBytes_commitSeq (a n : Nat) : (s.clearBytes a n).commitSeq = s.commitSeq := rfl
@[simp] theorem clearBytes_sems (a n : Nat) : (s.clearBytes a n).sems = s.sems := rfl
@[simp] theorem clearBytes_wsPend (a n : Nat) : (s.clearBytes a n).wsPend = s.wsPend := rfl
@[simp] theorem clearBytes_wsBusy (a n : Nat) : (s.clearBytes a n).wsBusy = s.wsBusy := rfl
@[simp] theorem clearBytes_wsAcc (a n : Nat) : (s.clearBytes a n).wsAcc = s.wsAcc := rfl
@[simp] theorem clearBytes_stalled (a n : Nat) : (s.clearBytes a n).stalled = s.stalled := rfl
@[simp] theorem clearBytes_uarts (a n : Nat) : (s.clearBytes a n).uarts = s.uarts := rfl
@[simp] theorem clearBytes_chks (a n : Nat) : (s.clearBytes a n).chks = s.chks := rfl
@[simp] theorem clearBytes_sec (a n : Nat) : (s.clearBytes a n).sec = s.sec := rfl
@[simp] theorem clearBytes_nvm (a n : Nat) : (s.clearBytes a n).nvm = s.nvm := rfl
@[simp] theorem clearBytes_age (a n : Nat) : (s.clearBytes a n).age = s.age := rfl
@[simp] theorem clearBytes_stgs (a n : Nat) : (s.clearBytes a n).stgs = s.stgs := rfl
@[simp] theorem clearBytes_psuEn (a n : Nat) : (s.clearBytes a n).psuEn = s.psuEn := rfl
@[simp] theorem clearBytes_sagActed (a n : Nat) : (s.clearBytes a n).sagActed = s.sagActed := rfl
@[simp] theorem clearBytes_sagHeld (a n : Nat) : (s.clearBytes a n).sagHeld = s.sagHeld := rfl
@[simp] theorem clearBytes_mute (a n : Nat) : (s.clearBytes a n).mute = s.mute := rfl
@[simp] theorem clearBytes_sagRelease (a n : Nat) : (s.clearBytes a n).sagRelease = s.sagRelease := rfl
@[simp] theorem clearBytes_sagCut (a n : Nat) : (s.clearBytes a n).sagCut = s.sagCut := rfl
@[simp] theorem clearBytes_posted (a n : Nat) : (s.clearBytes a n).posted = s.posted := rfl
@[simp] theorem clearBytes_slotResp (a n : Nat) : (s.clearBytes a n).slotResp = s.slotResp := rfl
@[simp] theorem clearBytes_refAll (a n : Nat) : (s.clearBytes a n).refAll = s.refAll := rfl
@[simp] theorem clearBytes_refEnd (a n : Nat) : (s.clearBytes a n).refEnd = s.refEnd := rfl
@[simp] theorem clearBytes_strobes (a n : Nat) : (s.clearBytes a n).strobes = s.strobes := rfl
@[simp] theorem clearBytes_evals (a n : Nat) : (s.clearBytes a n).evals = s.evals := rfl
@[simp] theorem clearBytes_clrSeen (a n : Nat) : (s.clearBytes a n).clrSeen = s.clrSeen := rfl

/-! ### A voice slot is stored -/

@[simp] theorem setSlot_pending (v : Nat) (x : Slot) : (s.setSlot v x).pending = s.pending := rfl
@[simp] theorem setSlot_variant (v : Nat) (x : Slot) : (s.setSlot v x).variant = s.variant := rfl
@[simp] theorem setSlot_phase (v : Nat) (x : Slot) : (s.setSlot v x).phase = s.phase := rfl
@[simp] theorem setSlot_csr (v : Nat) (x : Slot) : (s.setSlot v x).csr = s.csr := rfl
@[simp] theorem setSlot_hidden (v : Nat) (x : Slot) : (s.setSlot v x).hidden = s.hidden := rfl
@[simp] theorem setSlot_latch (v : Nat) (x : Slot) : (s.setSlot v x).latch = s.latch := rfl
@[simp] theorem setSlot_mem (v : Nat) (x : Slot) : (s.setSlot v x).mem = s.mem := rfl
@[simp] theorem setSlot_resp (v : Nat) (x : Slot) : (s.setSlot v x).resp = s.resp := rfl
@[simp] theorem setSlot_arbLast (v : Nat) (x : Slot) : (s.setSlot v x).arbLast = s.arbLast := rfl
@[simp] theorem setSlot_now (v : Nat) (x : Slot) : (s.setSlot v x).now = s.now := rfl
@[simp] theorem setSlot_refCyc (v : Nat) (x : Slot) : (s.setSlot v x).refCyc = s.refCyc := rfl
@[simp] theorem setSlot_refNow (v : Nat) (x : Slot) : (s.setSlot v x).refNow = s.refNow := rfl
@[simp] theorem setSlot_draw (v : Nat) (x : Slot) : (s.setSlot v x).draw = s.draw := rfl
@[simp] theorem setSlot_heap (v : Nat) (x : Slot) : (s.setSlot v x).heap = s.heap := rfl
@[simp] theorem setSlot_heapSeq (v : Nat) (x : Slot) : (s.setSlot v x).heapSeq = s.heapSeq := rfl
@[simp] theorem setSlot_hmap (v : Nat) (x : Slot) : (s.setSlot v x).hmap = s.hmap := rfl
@[simp] theorem setSlot_midi (v : Nat) (x : Slot) : (s.setSlot v x).midi = s.midi := rfl
@[simp] theorem setSlot_paused (v : Nat) (x : Slot) : (s.setSlot v x).paused = s.paused := rfl
@[simp] theorem setSlot_tails (v : Nat) (x : Slot) : (s.setSlot v x).tails = s.tails := rfl
@[simp] theorem setSlot_parts (v : Nat) (x : Slot) : (s.setSlot v x).parts = s.parts := rfl
@[simp] theorem setSlot_ctxs (v : Nat) (x : Slot) : (s.setSlot v x).ctxs = s.ctxs := rfl
@[simp] theorem setSlot_budget (v : Nat) (x : Slot) : (s.setSlot v x).budget = s.budget := rfl
@[simp] theorem setSlot_progs (v : Nat) (x : Slot) : (s.setSlot v x).progs = s.progs := rfl
@[simp] theorem setSlot_cores (v : Nat) (x : Slot) : (s.setSlot v x).cores = s.cores := rfl
@[simp] theorem setSlot_intake (v : Nat) (x : Slot) : (s.setSlot v x).intake = s.intake := rfl
@[simp] theorem setSlot_readySeq (v : Nat) (x : Slot) : (s.setSlot v x).readySeq = s.readySeq := rfl
@[simp] theorem setSlot_runs (v : Nat) (x : Slot) : (s.setSlot v x).runs = s.runs := rfl
@[simp] theorem setSlot_taskOn (v : Nat) (x : Slot) : (s.setSlot v x).taskOn = s.taskOn := rfl
@[simp] theorem setSlot_pubs (v : Nat) (x : Slot) : (s.setSlot v x).pubs = s.pubs := rfl
@[simp] theorem setSlot_col (v : Nat) (x : Slot) : (s.setSlot v x).col = s.col := rfl
@[simp] theorem setSlot_dac (v : Nat) (x : Slot) : (s.setSlot v x).dac = s.dac := rfl
@[simp] theorem setSlot_clrPin (v : Nat) (x : Slot) : (s.setSlot v x).clrPin = s.clrPin := rfl
@[simp] theorem setSlot_mck (v : Nat) (x : Slot) : (s.setSlot v x).mck = s.mck := rfl
@[simp] theorem setSlot_ports (v : Nat) (x : Slot) : (s.setSlot v x).ports = s.ports := rfl
@[simp] theorem setSlot_txns (v : Nat) (x : Slot) : (s.setSlot v x).txns = s.txns := rfl
@[simp] theorem setSlot_commitSeq (v : Nat) (x : Slot) : (s.setSlot v x).commitSeq = s.commitSeq := rfl
@[simp] theorem setSlot_sems (v : Nat) (x : Slot) : (s.setSlot v x).sems = s.sems := rfl
@[simp] theorem setSlot_wsPend (v : Nat) (x : Slot) : (s.setSlot v x).wsPend = s.wsPend := rfl
@[simp] theorem setSlot_wsBusy (v : Nat) (x : Slot) : (s.setSlot v x).wsBusy = s.wsBusy := rfl
@[simp] theorem setSlot_wsAcc (v : Nat) (x : Slot) : (s.setSlot v x).wsAcc = s.wsAcc := rfl
@[simp] theorem setSlot_stalled (v : Nat) (x : Slot) : (s.setSlot v x).stalled = s.stalled := rfl
@[simp] theorem setSlot_uarts (v : Nat) (x : Slot) : (s.setSlot v x).uarts = s.uarts := rfl
@[simp] theorem setSlot_chks (v : Nat) (x : Slot) : (s.setSlot v x).chks = s.chks := rfl
@[simp] theorem setSlot_sec (v : Nat) (x : Slot) : (s.setSlot v x).sec = s.sec := rfl
@[simp] theorem setSlot_nvm (v : Nat) (x : Slot) : (s.setSlot v x).nvm = s.nvm := rfl
@[simp] theorem setSlot_age (v : Nat) (x : Slot) : (s.setSlot v x).age = s.age := rfl
@[simp] theorem setSlot_stgs (v : Nat) (x : Slot) : (s.setSlot v x).stgs = s.stgs := rfl
@[simp] theorem setSlot_psuEn (v : Nat) (x : Slot) : (s.setSlot v x).psuEn = s.psuEn := rfl
@[simp] theorem setSlot_sagActed (v : Nat) (x : Slot) : (s.setSlot v x).sagActed = s.sagActed := rfl
@[simp] theorem setSlot_sagHeld (v : Nat) (x : Slot) : (s.setSlot v x).sagHeld = s.sagHeld := rfl
@[simp] theorem setSlot_mute (v : Nat) (x : Slot) : (s.setSlot v x).mute = s.mute := rfl
@[simp] theorem setSlot_sagRelease (v : Nat) (x : Slot) : (s.setSlot v x).sagRelease = s.sagRelease := rfl
@[simp] theorem setSlot_sagCut (v : Nat) (x : Slot) : (s.setSlot v x).sagCut = s.sagCut := rfl
@[simp] theorem setSlot_posted (v : Nat) (x : Slot) : (s.setSlot v x).posted = s.posted := rfl
@[simp] theorem setSlot_slotResp (v : Nat) (x : Slot) : (s.setSlot v x).slotResp = s.slotResp := rfl
@[simp] theorem setSlot_refAll (v : Nat) (x : Slot) : (s.setSlot v x).refAll = s.refAll := rfl
@[simp] theorem setSlot_refEnd (v : Nat) (x : Slot) : (s.setSlot v x).refEnd = s.refEnd := rfl
@[simp] theorem setSlot_strobes (v : Nat) (x : Slot) : (s.setSlot v x).strobes = s.strobes := rfl
@[simp] theorem setSlot_evals (v : Nat) (x : Slot) : (s.setSlot v x).evals = s.evals := rfl
@[simp] theorem setSlot_clrSeen (v : Nat) (x : Slot) : (s.setSlot v x).clrSeen = s.clrSeen := rfl

@[simp] theorem setSlot_slot_same (v : Nat) (x : Slot) : (s.setSlot v x).slot v = x := tget_tput_same ..
theorem setSlot_slot_other {v j : Nat} (h : j ≠ v) (x : Slot) : (s.setSlot v x).slot j = s.slot j :=
  tget_tput_other _ _ _ h

/-! ### A tail slot is stored -/

@[simp] theorem setTail_pending (t : Nat) (x : Tail) : (s.setTail t x).pending = s.pending := rfl
@[simp] theorem setTail_variant (t : Nat) (x : Tail) : (s.setTail t x).variant = s.variant := rfl
@[simp] theorem setTail_phase (t : Nat) (x : Tail) : (s.setTail t x).phase = s.phase := rfl
@[simp] theorem setTail_csr (t : Nat) (x : Tail) : (s.setTail t x).csr = s.csr := rfl
@[simp] theorem setTail_hidden (t : Nat) (x : Tail) : (s.setTail t x).hidden = s.hidden := rfl
@[simp] theorem setTail_latch (t : Nat) (x : Tail) : (s.setTail t x).latch = s.latch := rfl
@[simp] theorem setTail_mem (t : Nat) (x : Tail) : (s.setTail t x).mem = s.mem := rfl
@[simp] theorem setTail_resp (t : Nat) (x : Tail) : (s.setTail t x).resp = s.resp := rfl
@[simp] theorem setTail_arbLast (t : Nat) (x : Tail) : (s.setTail t x).arbLast = s.arbLast := rfl
@[simp] theorem setTail_now (t : Nat) (x : Tail) : (s.setTail t x).now = s.now := rfl
@[simp] theorem setTail_refCyc (t : Nat) (x : Tail) : (s.setTail t x).refCyc = s.refCyc := rfl
@[simp] theorem setTail_refNow (t : Nat) (x : Tail) : (s.setTail t x).refNow = s.refNow := rfl
@[simp] theorem setTail_draw (t : Nat) (x : Tail) : (s.setTail t x).draw = s.draw := rfl
@[simp] theorem setTail_heap (t : Nat) (x : Tail) : (s.setTail t x).heap = s.heap := rfl
@[simp] theorem setTail_heapSeq (t : Nat) (x : Tail) : (s.setTail t x).heapSeq = s.heapSeq := rfl
@[simp] theorem setTail_hmap (t : Nat) (x : Tail) : (s.setTail t x).hmap = s.hmap := rfl
@[simp] theorem setTail_midi (t : Nat) (x : Tail) : (s.setTail t x).midi = s.midi := rfl
@[simp] theorem setTail_paused (t : Nat) (x : Tail) : (s.setTail t x).paused = s.paused := rfl
@[simp] theorem setTail_slots (t : Nat) (x : Tail) : (s.setTail t x).slots = s.slots := rfl
@[simp] theorem setTail_parts (t : Nat) (x : Tail) : (s.setTail t x).parts = s.parts := rfl
@[simp] theorem setTail_ctxs (t : Nat) (x : Tail) : (s.setTail t x).ctxs = s.ctxs := rfl
@[simp] theorem setTail_budget (t : Nat) (x : Tail) : (s.setTail t x).budget = s.budget := rfl
@[simp] theorem setTail_progs (t : Nat) (x : Tail) : (s.setTail t x).progs = s.progs := rfl
@[simp] theorem setTail_cores (t : Nat) (x : Tail) : (s.setTail t x).cores = s.cores := rfl
@[simp] theorem setTail_intake (t : Nat) (x : Tail) : (s.setTail t x).intake = s.intake := rfl
@[simp] theorem setTail_readySeq (t : Nat) (x : Tail) : (s.setTail t x).readySeq = s.readySeq := rfl
@[simp] theorem setTail_runs (t : Nat) (x : Tail) : (s.setTail t x).runs = s.runs := rfl
@[simp] theorem setTail_taskOn (t : Nat) (x : Tail) : (s.setTail t x).taskOn = s.taskOn := rfl
@[simp] theorem setTail_pubs (t : Nat) (x : Tail) : (s.setTail t x).pubs = s.pubs := rfl
@[simp] theorem setTail_col (t : Nat) (x : Tail) : (s.setTail t x).col = s.col := rfl
@[simp] theorem setTail_dac (t : Nat) (x : Tail) : (s.setTail t x).dac = s.dac := rfl
@[simp] theorem setTail_clrPin (t : Nat) (x : Tail) : (s.setTail t x).clrPin = s.clrPin := rfl
@[simp] theorem setTail_mck (t : Nat) (x : Tail) : (s.setTail t x).mck = s.mck := rfl
@[simp] theorem setTail_ports (t : Nat) (x : Tail) : (s.setTail t x).ports = s.ports := rfl
@[simp] theorem setTail_txns (t : Nat) (x : Tail) : (s.setTail t x).txns = s.txns := rfl
@[simp] theorem setTail_commitSeq (t : Nat) (x : Tail) : (s.setTail t x).commitSeq = s.commitSeq := rfl
@[simp] theorem setTail_sems (t : Nat) (x : Tail) : (s.setTail t x).sems = s.sems := rfl
@[simp] theorem setTail_wsPend (t : Nat) (x : Tail) : (s.setTail t x).wsPend = s.wsPend := rfl
@[simp] theorem setTail_wsBusy (t : Nat) (x : Tail) : (s.setTail t x).wsBusy = s.wsBusy := rfl
@[simp] theorem setTail_wsAcc (t : Nat) (x : Tail) : (s.setTail t x).wsAcc = s.wsAcc := rfl
@[simp] theorem setTail_stalled (t : Nat) (x : Tail) : (s.setTail t x).stalled = s.stalled := rfl
@[simp] theorem setTail_uarts (t : Nat) (x : Tail) : (s.setTail t x).uarts = s.uarts := rfl
@[simp] theorem setTail_chks (t : Nat) (x : Tail) : (s.setTail t x).chks = s.chks := rfl
@[simp] theorem setTail_sec (t : Nat) (x : Tail) : (s.setTail t x).sec = s.sec := rfl
@[simp] theorem setTail_nvm (t : Nat) (x : Tail) : (s.setTail t x).nvm = s.nvm := rfl
@[simp] theorem setTail_age (t : Nat) (x : Tail) : (s.setTail t x).age = s.age := rfl
@[simp] theorem setTail_stgs (t : Nat) (x : Tail) : (s.setTail t x).stgs = s.stgs := rfl
@[simp] theorem setTail_psuEn (t : Nat) (x : Tail) : (s.setTail t x).psuEn = s.psuEn := rfl
@[simp] theorem setTail_sagActed (t : Nat) (x : Tail) : (s.setTail t x).sagActed = s.sagActed := rfl
@[simp] theorem setTail_sagHeld (t : Nat) (x : Tail) : (s.setTail t x).sagHeld = s.sagHeld := rfl
@[simp] theorem setTail_mute (t : Nat) (x : Tail) : (s.setTail t x).mute = s.mute := rfl
@[simp] theorem setTail_sagRelease (t : Nat) (x : Tail) : (s.setTail t x).sagRelease = s.sagRelease := rfl
@[simp] theorem setTail_sagCut (t : Nat) (x : Tail) : (s.setTail t x).sagCut = s.sagCut := rfl
@[simp] theorem setTail_posted (t : Nat) (x : Tail) : (s.setTail t x).posted = s.posted := rfl
@[simp] theorem setTail_slotResp (t : Nat) (x : Tail) : (s.setTail t x).slotResp = s.slotResp := rfl
@[simp] theorem setTail_refAll (t : Nat) (x : Tail) : (s.setTail t x).refAll = s.refAll := rfl
@[simp] theorem setTail_refEnd (t : Nat) (x : Tail) : (s.setTail t x).refEnd = s.refEnd := rfl
@[simp] theorem setTail_strobes (t : Nat) (x : Tail) : (s.setTail t x).strobes = s.strobes := rfl
@[simp] theorem setTail_evals (t : Nat) (x : Tail) : (s.setTail t x).evals = s.evals := rfl
@[simp] theorem setTail_clrSeen (t : Nat) (x : Tail) : (s.setTail t x).clrSeen = s.clrSeen := rfl

@[simp] theorem setTail_tail_same (t : Nat) (x : Tail) : (s.setTail t x).tail t = x := tget_tput_same ..
theorem setTail_tail_other {t j : Nat} (h : j ≠ t) (x : Tail) : (s.setTail t x).tail j = s.tail j :=
  tget_tput_other _ _ _ h

/-! ### A part is stored -/

@[simp] theorem setPart_pending (p : Nat) (x : Part) : (s.setPart p x).pending = s.pending := rfl
@[simp] theorem setPart_variant (p : Nat) (x : Part) : (s.setPart p x).variant = s.variant := rfl
@[simp] theorem setPart_phase (p : Nat) (x : Part) : (s.setPart p x).phase = s.phase := rfl
@[simp] theorem setPart_csr (p : Nat) (x : Part) : (s.setPart p x).csr = s.csr := rfl
@[simp] theorem setPart_hidden (p : Nat) (x : Part) : (s.setPart p x).hidden = s.hidden := rfl
@[simp] theorem setPart_latch (p : Nat) (x : Part) : (s.setPart p x).latch = s.latch := rfl
@[simp] theorem setPart_mem (p : Nat) (x : Part) : (s.setPart p x).mem = s.mem := rfl
@[simp] theorem setPart_resp (p : Nat) (x : Part) : (s.setPart p x).resp = s.resp := rfl
@[simp] theorem setPart_arbLast (p : Nat) (x : Part) : (s.setPart p x).arbLast = s.arbLast := rfl
@[simp] theorem setPart_now (p : Nat) (x : Part) : (s.setPart p x).now = s.now := rfl
@[simp] theorem setPart_refCyc (p : Nat) (x : Part) : (s.setPart p x).refCyc = s.refCyc := rfl
@[simp] theorem setPart_refNow (p : Nat) (x : Part) : (s.setPart p x).refNow = s.refNow := rfl
@[simp] theorem setPart_draw (p : Nat) (x : Part) : (s.setPart p x).draw = s.draw := rfl
@[simp] theorem setPart_heap (p : Nat) (x : Part) : (s.setPart p x).heap = s.heap := rfl
@[simp] theorem setPart_heapSeq (p : Nat) (x : Part) : (s.setPart p x).heapSeq = s.heapSeq := rfl
@[simp] theorem setPart_hmap (p : Nat) (x : Part) : (s.setPart p x).hmap = s.hmap := rfl
@[simp] theorem setPart_midi (p : Nat) (x : Part) : (s.setPart p x).midi = s.midi := rfl
@[simp] theorem setPart_paused (p : Nat) (x : Part) : (s.setPart p x).paused = s.paused := rfl
@[simp] theorem setPart_slots (p : Nat) (x : Part) : (s.setPart p x).slots = s.slots := rfl
@[simp] theorem setPart_tails (p : Nat) (x : Part) : (s.setPart p x).tails = s.tails := rfl
@[simp] theorem setPart_ctxs (p : Nat) (x : Part) : (s.setPart p x).ctxs = s.ctxs := rfl
@[simp] theorem setPart_budget (p : Nat) (x : Part) : (s.setPart p x).budget = s.budget := rfl
@[simp] theorem setPart_progs (p : Nat) (x : Part) : (s.setPart p x).progs = s.progs := rfl
@[simp] theorem setPart_cores (p : Nat) (x : Part) : (s.setPart p x).cores = s.cores := rfl
@[simp] theorem setPart_intake (p : Nat) (x : Part) : (s.setPart p x).intake = s.intake := rfl
@[simp] theorem setPart_readySeq (p : Nat) (x : Part) : (s.setPart p x).readySeq = s.readySeq := rfl
@[simp] theorem setPart_runs (p : Nat) (x : Part) : (s.setPart p x).runs = s.runs := rfl
@[simp] theorem setPart_taskOn (p : Nat) (x : Part) : (s.setPart p x).taskOn = s.taskOn := rfl
@[simp] theorem setPart_pubs (p : Nat) (x : Part) : (s.setPart p x).pubs = s.pubs := rfl
@[simp] theorem setPart_col (p : Nat) (x : Part) : (s.setPart p x).col = s.col := rfl
@[simp] theorem setPart_dac (p : Nat) (x : Part) : (s.setPart p x).dac = s.dac := rfl
@[simp] theorem setPart_clrPin (p : Nat) (x : Part) : (s.setPart p x).clrPin = s.clrPin := rfl
@[simp] theorem setPart_mck (p : Nat) (x : Part) : (s.setPart p x).mck = s.mck := rfl
@[simp] theorem setPart_ports (p : Nat) (x : Part) : (s.setPart p x).ports = s.ports := rfl
@[simp] theorem setPart_txns (p : Nat) (x : Part) : (s.setPart p x).txns = s.txns := rfl
@[simp] theorem setPart_commitSeq (p : Nat) (x : Part) : (s.setPart p x).commitSeq = s.commitSeq := rfl
@[simp] theorem setPart_sems (p : Nat) (x : Part) : (s.setPart p x).sems = s.sems := rfl
@[simp] theorem setPart_wsPend (p : Nat) (x : Part) : (s.setPart p x).wsPend = s.wsPend := rfl
@[simp] theorem setPart_wsBusy (p : Nat) (x : Part) : (s.setPart p x).wsBusy = s.wsBusy := rfl
@[simp] theorem setPart_wsAcc (p : Nat) (x : Part) : (s.setPart p x).wsAcc = s.wsAcc := rfl
@[simp] theorem setPart_stalled (p : Nat) (x : Part) : (s.setPart p x).stalled = s.stalled := rfl
@[simp] theorem setPart_uarts (p : Nat) (x : Part) : (s.setPart p x).uarts = s.uarts := rfl
@[simp] theorem setPart_chks (p : Nat) (x : Part) : (s.setPart p x).chks = s.chks := rfl
@[simp] theorem setPart_sec (p : Nat) (x : Part) : (s.setPart p x).sec = s.sec := rfl
@[simp] theorem setPart_nvm (p : Nat) (x : Part) : (s.setPart p x).nvm = s.nvm := rfl
@[simp] theorem setPart_age (p : Nat) (x : Part) : (s.setPart p x).age = s.age := rfl
@[simp] theorem setPart_stgs (p : Nat) (x : Part) : (s.setPart p x).stgs = s.stgs := rfl
@[simp] theorem setPart_psuEn (p : Nat) (x : Part) : (s.setPart p x).psuEn = s.psuEn := rfl
@[simp] theorem setPart_sagActed (p : Nat) (x : Part) : (s.setPart p x).sagActed = s.sagActed := rfl
@[simp] theorem setPart_sagHeld (p : Nat) (x : Part) : (s.setPart p x).sagHeld = s.sagHeld := rfl
@[simp] theorem setPart_mute (p : Nat) (x : Part) : (s.setPart p x).mute = s.mute := rfl
@[simp] theorem setPart_sagRelease (p : Nat) (x : Part) : (s.setPart p x).sagRelease = s.sagRelease := rfl
@[simp] theorem setPart_sagCut (p : Nat) (x : Part) : (s.setPart p x).sagCut = s.sagCut := rfl
@[simp] theorem setPart_posted (p : Nat) (x : Part) : (s.setPart p x).posted = s.posted := rfl
@[simp] theorem setPart_slotResp (p : Nat) (x : Part) : (s.setPart p x).slotResp = s.slotResp := rfl
@[simp] theorem setPart_refAll (p : Nat) (x : Part) : (s.setPart p x).refAll = s.refAll := rfl
@[simp] theorem setPart_refEnd (p : Nat) (x : Part) : (s.setPart p x).refEnd = s.refEnd := rfl
@[simp] theorem setPart_strobes (p : Nat) (x : Part) : (s.setPart p x).strobes = s.strobes := rfl
@[simp] theorem setPart_evals (p : Nat) (x : Part) : (s.setPart p x).evals = s.evals := rfl
@[simp] theorem setPart_clrSeen (p : Nat) (x : Part) : (s.setPart p x).clrSeen = s.clrSeen := rfl

@[simp] theorem setPart_part_same (p : Nat) (x : Part) : (s.setPart p x).part p = x := tget_tput_same ..
theorem setPart_part_other {p j : Nat} (h : j ≠ p) (x : Part) : (s.setPart p x).part j = s.part j :=
  tget_tput_other _ _ _ h

/-! ### A context is stored -/

@[simp] theorem setCtx_pending (k : Nat) (c : Ctx) : (s.setCtx k c).pending = s.pending := rfl
@[simp] theorem setCtx_variant (k : Nat) (c : Ctx) : (s.setCtx k c).variant = s.variant := rfl
@[simp] theorem setCtx_phase (k : Nat) (c : Ctx) : (s.setCtx k c).phase = s.phase := rfl
@[simp] theorem setCtx_csr (k : Nat) (c : Ctx) : (s.setCtx k c).csr = s.csr := rfl
@[simp] theorem setCtx_hidden (k : Nat) (c : Ctx) : (s.setCtx k c).hidden = s.hidden := rfl
@[simp] theorem setCtx_latch (k : Nat) (c : Ctx) : (s.setCtx k c).latch = s.latch := rfl
@[simp] theorem setCtx_mem (k : Nat) (c : Ctx) : (s.setCtx k c).mem = s.mem := rfl
@[simp] theorem setCtx_resp (k : Nat) (c : Ctx) : (s.setCtx k c).resp = s.resp := rfl
@[simp] theorem setCtx_arbLast (k : Nat) (c : Ctx) : (s.setCtx k c).arbLast = s.arbLast := rfl
@[simp] theorem setCtx_now (k : Nat) (c : Ctx) : (s.setCtx k c).now = s.now := rfl
@[simp] theorem setCtx_refCyc (k : Nat) (c : Ctx) : (s.setCtx k c).refCyc = s.refCyc := rfl
@[simp] theorem setCtx_refNow (k : Nat) (c : Ctx) : (s.setCtx k c).refNow = s.refNow := rfl
@[simp] theorem setCtx_draw (k : Nat) (c : Ctx) : (s.setCtx k c).draw = s.draw := rfl
@[simp] theorem setCtx_heap (k : Nat) (c : Ctx) : (s.setCtx k c).heap = s.heap := rfl
@[simp] theorem setCtx_heapSeq (k : Nat) (c : Ctx) : (s.setCtx k c).heapSeq = s.heapSeq := rfl
@[simp] theorem setCtx_hmap (k : Nat) (c : Ctx) : (s.setCtx k c).hmap = s.hmap := rfl
@[simp] theorem setCtx_midi (k : Nat) (c : Ctx) : (s.setCtx k c).midi = s.midi := rfl
@[simp] theorem setCtx_paused (k : Nat) (c : Ctx) : (s.setCtx k c).paused = s.paused := rfl
@[simp] theorem setCtx_slots (k : Nat) (c : Ctx) : (s.setCtx k c).slots = s.slots := rfl
@[simp] theorem setCtx_tails (k : Nat) (c : Ctx) : (s.setCtx k c).tails = s.tails := rfl
@[simp] theorem setCtx_parts (k : Nat) (c : Ctx) : (s.setCtx k c).parts = s.parts := rfl
@[simp] theorem setCtx_budget (k : Nat) (c : Ctx) : (s.setCtx k c).budget = s.budget := rfl
@[simp] theorem setCtx_progs (k : Nat) (c : Ctx) : (s.setCtx k c).progs = s.progs := rfl
@[simp] theorem setCtx_cores (k : Nat) (c : Ctx) : (s.setCtx k c).cores = s.cores := rfl
@[simp] theorem setCtx_intake (k : Nat) (c : Ctx) : (s.setCtx k c).intake = s.intake := rfl
@[simp] theorem setCtx_readySeq (k : Nat) (c : Ctx) : (s.setCtx k c).readySeq = s.readySeq := rfl
@[simp] theorem setCtx_runs (k : Nat) (c : Ctx) : (s.setCtx k c).runs = s.runs := rfl
@[simp] theorem setCtx_taskOn (k : Nat) (c : Ctx) : (s.setCtx k c).taskOn = s.taskOn := rfl
@[simp] theorem setCtx_pubs (k : Nat) (c : Ctx) : (s.setCtx k c).pubs = s.pubs := rfl
@[simp] theorem setCtx_col (k : Nat) (c : Ctx) : (s.setCtx k c).col = s.col := rfl
@[simp] theorem setCtx_dac (k : Nat) (c : Ctx) : (s.setCtx k c).dac = s.dac := rfl
@[simp] theorem setCtx_clrPin (k : Nat) (c : Ctx) : (s.setCtx k c).clrPin = s.clrPin := rfl
@[simp] theorem setCtx_mck (k : Nat) (c : Ctx) : (s.setCtx k c).mck = s.mck := rfl
@[simp] theorem setCtx_ports (k : Nat) (c : Ctx) : (s.setCtx k c).ports = s.ports := rfl
@[simp] theorem setCtx_txns (k : Nat) (c : Ctx) : (s.setCtx k c).txns = s.txns := rfl
@[simp] theorem setCtx_commitSeq (k : Nat) (c : Ctx) : (s.setCtx k c).commitSeq = s.commitSeq := rfl
@[simp] theorem setCtx_sems (k : Nat) (c : Ctx) : (s.setCtx k c).sems = s.sems := rfl
@[simp] theorem setCtx_wsPend (k : Nat) (c : Ctx) : (s.setCtx k c).wsPend = s.wsPend := rfl
@[simp] theorem setCtx_wsBusy (k : Nat) (c : Ctx) : (s.setCtx k c).wsBusy = s.wsBusy := rfl
@[simp] theorem setCtx_wsAcc (k : Nat) (c : Ctx) : (s.setCtx k c).wsAcc = s.wsAcc := rfl
@[simp] theorem setCtx_stalled (k : Nat) (c : Ctx) : (s.setCtx k c).stalled = s.stalled := rfl
@[simp] theorem setCtx_uarts (k : Nat) (c : Ctx) : (s.setCtx k c).uarts = s.uarts := rfl
@[simp] theorem setCtx_chks (k : Nat) (c : Ctx) : (s.setCtx k c).chks = s.chks := rfl
@[simp] theorem setCtx_sec (k : Nat) (c : Ctx) : (s.setCtx k c).sec = s.sec := rfl
@[simp] theorem setCtx_nvm (k : Nat) (c : Ctx) : (s.setCtx k c).nvm = s.nvm := rfl
@[simp] theorem setCtx_age (k : Nat) (c : Ctx) : (s.setCtx k c).age = s.age := rfl
@[simp] theorem setCtx_stgs (k : Nat) (c : Ctx) : (s.setCtx k c).stgs = s.stgs := rfl
@[simp] theorem setCtx_psuEn (k : Nat) (c : Ctx) : (s.setCtx k c).psuEn = s.psuEn := rfl
@[simp] theorem setCtx_sagActed (k : Nat) (c : Ctx) : (s.setCtx k c).sagActed = s.sagActed := rfl
@[simp] theorem setCtx_sagHeld (k : Nat) (c : Ctx) : (s.setCtx k c).sagHeld = s.sagHeld := rfl
@[simp] theorem setCtx_mute (k : Nat) (c : Ctx) : (s.setCtx k c).mute = s.mute := rfl
@[simp] theorem setCtx_sagRelease (k : Nat) (c : Ctx) : (s.setCtx k c).sagRelease = s.sagRelease := rfl
@[simp] theorem setCtx_sagCut (k : Nat) (c : Ctx) : (s.setCtx k c).sagCut = s.sagCut := rfl
@[simp] theorem setCtx_posted (k : Nat) (c : Ctx) : (s.setCtx k c).posted = s.posted := rfl
@[simp] theorem setCtx_slotResp (k : Nat) (c : Ctx) : (s.setCtx k c).slotResp = s.slotResp := rfl
@[simp] theorem setCtx_refAll (k : Nat) (c : Ctx) : (s.setCtx k c).refAll = s.refAll := rfl
@[simp] theorem setCtx_refEnd (k : Nat) (c : Ctx) : (s.setCtx k c).refEnd = s.refEnd := rfl
@[simp] theorem setCtx_strobes (k : Nat) (c : Ctx) : (s.setCtx k c).strobes = s.strobes := rfl
@[simp] theorem setCtx_evals (k : Nat) (c : Ctx) : (s.setCtx k c).evals = s.evals := rfl
@[simp] theorem setCtx_clrSeen (k : Nat) (c : Ctx) : (s.setCtx k c).clrSeen = s.clrSeen := rfl

@[simp] theorem setCtx_ctx_same (k : Nat) (c : Ctx) : (s.setCtx k c).ctx k = c := tget_tput_same ..
theorem setCtx_ctx_other {k j : Nat} (h : j ≠ k) (c : Ctx) : (s.setCtx k c).ctx j = s.ctx j :=
  tget_tput_other _ _ _ h

/-! ### A core is stored -/

@[simp] theorem setCore_pending (n : Nat) (c : Core) : (s.setCore n c).pending = s.pending := rfl
@[simp] theorem setCore_variant (n : Nat) (c : Core) : (s.setCore n c).variant = s.variant := rfl
@[simp] theorem setCore_phase (n : Nat) (c : Core) : (s.setCore n c).phase = s.phase := rfl
@[simp] theorem setCore_csr (n : Nat) (c : Core) : (s.setCore n c).csr = s.csr := rfl
@[simp] theorem setCore_hidden (n : Nat) (c : Core) : (s.setCore n c).hidden = s.hidden := rfl
@[simp] theorem setCore_latch (n : Nat) (c : Core) : (s.setCore n c).latch = s.latch := rfl
@[simp] theorem setCore_mem (n : Nat) (c : Core) : (s.setCore n c).mem = s.mem := rfl
@[simp] theorem setCore_resp (n : Nat) (c : Core) : (s.setCore n c).resp = s.resp := rfl
@[simp] theorem setCore_arbLast (n : Nat) (c : Core) : (s.setCore n c).arbLast = s.arbLast := rfl
@[simp] theorem setCore_now (n : Nat) (c : Core) : (s.setCore n c).now = s.now := rfl
@[simp] theorem setCore_refCyc (n : Nat) (c : Core) : (s.setCore n c).refCyc = s.refCyc := rfl
@[simp] theorem setCore_refNow (n : Nat) (c : Core) : (s.setCore n c).refNow = s.refNow := rfl
@[simp] theorem setCore_draw (n : Nat) (c : Core) : (s.setCore n c).draw = s.draw := rfl
@[simp] theorem setCore_heap (n : Nat) (c : Core) : (s.setCore n c).heap = s.heap := rfl
@[simp] theorem setCore_heapSeq (n : Nat) (c : Core) : (s.setCore n c).heapSeq = s.heapSeq := rfl
@[simp] theorem setCore_hmap (n : Nat) (c : Core) : (s.setCore n c).hmap = s.hmap := rfl
@[simp] theorem setCore_midi (n : Nat) (c : Core) : (s.setCore n c).midi = s.midi := rfl
@[simp] theorem setCore_paused (n : Nat) (c : Core) : (s.setCore n c).paused = s.paused := rfl
@[simp] theorem setCore_slots (n : Nat) (c : Core) : (s.setCore n c).slots = s.slots := rfl
@[simp] theorem setCore_tails (n : Nat) (c : Core) : (s.setCore n c).tails = s.tails := rfl
@[simp] theorem setCore_parts (n : Nat) (c : Core) : (s.setCore n c).parts = s.parts := rfl
@[simp] theorem setCore_ctxs (n : Nat) (c : Core) : (s.setCore n c).ctxs = s.ctxs := rfl
@[simp] theorem setCore_budget (n : Nat) (c : Core) : (s.setCore n c).budget = s.budget := rfl
@[simp] theorem setCore_progs (n : Nat) (c : Core) : (s.setCore n c).progs = s.progs := rfl
@[simp] theorem setCore_intake (n : Nat) (c : Core) : (s.setCore n c).intake = s.intake := rfl
@[simp] theorem setCore_readySeq (n : Nat) (c : Core) : (s.setCore n c).readySeq = s.readySeq := rfl
@[simp] theorem setCore_runs (n : Nat) (c : Core) : (s.setCore n c).runs = s.runs := rfl
@[simp] theorem setCore_taskOn (n : Nat) (c : Core) : (s.setCore n c).taskOn = s.taskOn := rfl
@[simp] theorem setCore_pubs (n : Nat) (c : Core) : (s.setCore n c).pubs = s.pubs := rfl
@[simp] theorem setCore_col (n : Nat) (c : Core) : (s.setCore n c).col = s.col := rfl
@[simp] theorem setCore_dac (n : Nat) (c : Core) : (s.setCore n c).dac = s.dac := rfl
@[simp] theorem setCore_clrPin (n : Nat) (c : Core) : (s.setCore n c).clrPin = s.clrPin := rfl
@[simp] theorem setCore_mck (n : Nat) (c : Core) : (s.setCore n c).mck = s.mck := rfl
@[simp] theorem setCore_ports (n : Nat) (c : Core) : (s.setCore n c).ports = s.ports := rfl
@[simp] theorem setCore_txns (n : Nat) (c : Core) : (s.setCore n c).txns = s.txns := rfl
@[simp] theorem setCore_commitSeq (n : Nat) (c : Core) : (s.setCore n c).commitSeq = s.commitSeq := rfl
@[simp] theorem setCore_sems (n : Nat) (c : Core) : (s.setCore n c).sems = s.sems := rfl
@[simp] theorem setCore_wsPend (n : Nat) (c : Core) : (s.setCore n c).wsPend = s.wsPend := rfl
@[simp] theorem setCore_wsBusy (n : Nat) (c : Core) : (s.setCore n c).wsBusy = s.wsBusy := rfl
@[simp] theorem setCore_wsAcc (n : Nat) (c : Core) : (s.setCore n c).wsAcc = s.wsAcc := rfl
@[simp] theorem setCore_stalled (n : Nat) (c : Core) : (s.setCore n c).stalled = s.stalled := rfl
@[simp] theorem setCore_uarts (n : Nat) (c : Core) : (s.setCore n c).uarts = s.uarts := rfl
@[simp] theorem setCore_chks (n : Nat) (c : Core) : (s.setCore n c).chks = s.chks := rfl
@[simp] theorem setCore_sec (n : Nat) (c : Core) : (s.setCore n c).sec = s.sec := rfl
@[simp] theorem setCore_nvm (n : Nat) (c : Core) : (s.setCore n c).nvm = s.nvm := rfl
@[simp] theorem setCore_age (n : Nat) (c : Core) : (s.setCore n c).age = s.age := rfl
@[simp] theorem setCore_stgs (n : Nat) (c : Core) : (s.setCore n c).stgs = s.stgs := rfl
@[simp] theorem setCore_psuEn (n : Nat) (c : Core) : (s.setCore n c).psuEn = s.psuEn := rfl
@[simp] theorem setCore_sagActed (n : Nat) (c : Core) : (s.setCore n c).sagActed = s.sagActed := rfl
@[simp] theorem setCore_sagHeld (n : Nat) (c : Core) : (s.setCore n c).sagHeld = s.sagHeld := rfl
@[simp] theorem setCore_mute (n : Nat) (c : Core) : (s.setCore n c).mute = s.mute := rfl
@[simp] theorem setCore_sagRelease (n : Nat) (c : Core) : (s.setCore n c).sagRelease = s.sagRelease := rfl
@[simp] theorem setCore_sagCut (n : Nat) (c : Core) : (s.setCore n c).sagCut = s.sagCut := rfl
@[simp] theorem setCore_posted (n : Nat) (c : Core) : (s.setCore n c).posted = s.posted := rfl
@[simp] theorem setCore_slotResp (n : Nat) (c : Core) : (s.setCore n c).slotResp = s.slotResp := rfl
@[simp] theorem setCore_refAll (n : Nat) (c : Core) : (s.setCore n c).refAll = s.refAll := rfl
@[simp] theorem setCore_refEnd (n : Nat) (c : Core) : (s.setCore n c).refEnd = s.refEnd := rfl
@[simp] theorem setCore_strobes (n : Nat) (c : Core) : (s.setCore n c).strobes = s.strobes := rfl
@[simp] theorem setCore_evals (n : Nat) (c : Core) : (s.setCore n c).evals = s.evals := rfl
@[simp] theorem setCore_clrSeen (n : Nat) (c : Core) : (s.setCore n c).clrSeen = s.clrSeen := rfl

@[simp] theorem setCore_core_same (n : Nat) (c : Core) : (s.setCore n c).core n = c := tget_tput_same ..
theorem setCore_core_other {n j : Nat} (h : j ≠ n) (c : Core) : (s.setCore n c).core j = s.core j :=
  tget_tput_other _ _ _ h

/-! ### A Stage Engine is stored -/

@[simp] theorem setStg_pending (e : Nat) (x : Stage) : (s.setStg e x).pending = s.pending := rfl
@[simp] theorem setStg_variant (e : Nat) (x : Stage) : (s.setStg e x).variant = s.variant := rfl
@[simp] theorem setStg_phase (e : Nat) (x : Stage) : (s.setStg e x).phase = s.phase := rfl
@[simp] theorem setStg_csr (e : Nat) (x : Stage) : (s.setStg e x).csr = s.csr := rfl
@[simp] theorem setStg_hidden (e : Nat) (x : Stage) : (s.setStg e x).hidden = s.hidden := rfl
@[simp] theorem setStg_latch (e : Nat) (x : Stage) : (s.setStg e x).latch = s.latch := rfl
@[simp] theorem setStg_mem (e : Nat) (x : Stage) : (s.setStg e x).mem = s.mem := rfl
@[simp] theorem setStg_resp (e : Nat) (x : Stage) : (s.setStg e x).resp = s.resp := rfl
@[simp] theorem setStg_arbLast (e : Nat) (x : Stage) : (s.setStg e x).arbLast = s.arbLast := rfl
@[simp] theorem setStg_now (e : Nat) (x : Stage) : (s.setStg e x).now = s.now := rfl
@[simp] theorem setStg_refCyc (e : Nat) (x : Stage) : (s.setStg e x).refCyc = s.refCyc := rfl
@[simp] theorem setStg_refNow (e : Nat) (x : Stage) : (s.setStg e x).refNow = s.refNow := rfl
@[simp] theorem setStg_draw (e : Nat) (x : Stage) : (s.setStg e x).draw = s.draw := rfl
@[simp] theorem setStg_heap (e : Nat) (x : Stage) : (s.setStg e x).heap = s.heap := rfl
@[simp] theorem setStg_heapSeq (e : Nat) (x : Stage) : (s.setStg e x).heapSeq = s.heapSeq := rfl
@[simp] theorem setStg_hmap (e : Nat) (x : Stage) : (s.setStg e x).hmap = s.hmap := rfl
@[simp] theorem setStg_midi (e : Nat) (x : Stage) : (s.setStg e x).midi = s.midi := rfl
@[simp] theorem setStg_paused (e : Nat) (x : Stage) : (s.setStg e x).paused = s.paused := rfl
@[simp] theorem setStg_slots (e : Nat) (x : Stage) : (s.setStg e x).slots = s.slots := rfl
@[simp] theorem setStg_tails (e : Nat) (x : Stage) : (s.setStg e x).tails = s.tails := rfl
@[simp] theorem setStg_parts (e : Nat) (x : Stage) : (s.setStg e x).parts = s.parts := rfl
@[simp] theorem setStg_ctxs (e : Nat) (x : Stage) : (s.setStg e x).ctxs = s.ctxs := rfl
@[simp] theorem setStg_budget (e : Nat) (x : Stage) : (s.setStg e x).budget = s.budget := rfl
@[simp] theorem setStg_progs (e : Nat) (x : Stage) : (s.setStg e x).progs = s.progs := rfl
@[simp] theorem setStg_cores (e : Nat) (x : Stage) : (s.setStg e x).cores = s.cores := rfl
@[simp] theorem setStg_intake (e : Nat) (x : Stage) : (s.setStg e x).intake = s.intake := rfl
@[simp] theorem setStg_readySeq (e : Nat) (x : Stage) : (s.setStg e x).readySeq = s.readySeq := rfl
@[simp] theorem setStg_runs (e : Nat) (x : Stage) : (s.setStg e x).runs = s.runs := rfl
@[simp] theorem setStg_taskOn (e : Nat) (x : Stage) : (s.setStg e x).taskOn = s.taskOn := rfl
@[simp] theorem setStg_pubs (e : Nat) (x : Stage) : (s.setStg e x).pubs = s.pubs := rfl
@[simp] theorem setStg_col (e : Nat) (x : Stage) : (s.setStg e x).col = s.col := rfl
@[simp] theorem setStg_dac (e : Nat) (x : Stage) : (s.setStg e x).dac = s.dac := rfl
@[simp] theorem setStg_clrPin (e : Nat) (x : Stage) : (s.setStg e x).clrPin = s.clrPin := rfl
@[simp] theorem setStg_mck (e : Nat) (x : Stage) : (s.setStg e x).mck = s.mck := rfl
@[simp] theorem setStg_ports (e : Nat) (x : Stage) : (s.setStg e x).ports = s.ports := rfl
@[simp] theorem setStg_txns (e : Nat) (x : Stage) : (s.setStg e x).txns = s.txns := rfl
@[simp] theorem setStg_commitSeq (e : Nat) (x : Stage) : (s.setStg e x).commitSeq = s.commitSeq := rfl
@[simp] theorem setStg_sems (e : Nat) (x : Stage) : (s.setStg e x).sems = s.sems := rfl
@[simp] theorem setStg_wsPend (e : Nat) (x : Stage) : (s.setStg e x).wsPend = s.wsPend := rfl
@[simp] theorem setStg_wsBusy (e : Nat) (x : Stage) : (s.setStg e x).wsBusy = s.wsBusy := rfl
@[simp] theorem setStg_wsAcc (e : Nat) (x : Stage) : (s.setStg e x).wsAcc = s.wsAcc := rfl
@[simp] theorem setStg_stalled (e : Nat) (x : Stage) : (s.setStg e x).stalled = s.stalled := rfl
@[simp] theorem setStg_uarts (e : Nat) (x : Stage) : (s.setStg e x).uarts = s.uarts := rfl
@[simp] theorem setStg_chks (e : Nat) (x : Stage) : (s.setStg e x).chks = s.chks := rfl
@[simp] theorem setStg_sec (e : Nat) (x : Stage) : (s.setStg e x).sec = s.sec := rfl
@[simp] theorem setStg_nvm (e : Nat) (x : Stage) : (s.setStg e x).nvm = s.nvm := rfl
@[simp] theorem setStg_age (e : Nat) (x : Stage) : (s.setStg e x).age = s.age := rfl
@[simp] theorem setStg_psuEn (e : Nat) (x : Stage) : (s.setStg e x).psuEn = s.psuEn := rfl
@[simp] theorem setStg_sagActed (e : Nat) (x : Stage) : (s.setStg e x).sagActed = s.sagActed := rfl
@[simp] theorem setStg_sagHeld (e : Nat) (x : Stage) : (s.setStg e x).sagHeld = s.sagHeld := rfl
@[simp] theorem setStg_mute (e : Nat) (x : Stage) : (s.setStg e x).mute = s.mute := rfl
@[simp] theorem setStg_sagRelease (e : Nat) (x : Stage) : (s.setStg e x).sagRelease = s.sagRelease := rfl
@[simp] theorem setStg_sagCut (e : Nat) (x : Stage) : (s.setStg e x).sagCut = s.sagCut := rfl
@[simp] theorem setStg_posted (e : Nat) (x : Stage) : (s.setStg e x).posted = s.posted := rfl
@[simp] theorem setStg_slotResp (e : Nat) (x : Stage) : (s.setStg e x).slotResp = s.slotResp := rfl
@[simp] theorem setStg_refAll (e : Nat) (x : Stage) : (s.setStg e x).refAll = s.refAll := rfl
@[simp] theorem setStg_refEnd (e : Nat) (x : Stage) : (s.setStg e x).refEnd = s.refEnd := rfl
@[simp] theorem setStg_strobes (e : Nat) (x : Stage) : (s.setStg e x).strobes = s.strobes := rfl
@[simp] theorem setStg_evals (e : Nat) (x : Stage) : (s.setStg e x).evals = s.evals := rfl
@[simp] theorem setStg_clrSeen (e : Nat) (x : Stage) : (s.setStg e x).clrSeen = s.clrSeen := rfl

@[simp] theorem setStg_stg_same (e : Nat) (x : Stage) : (s.setStg e x).stg e = x := tget_tput_same ..
theorem setStg_stg_other {e j : Nat} (h : j ≠ e) (x : Stage) : (s.setStg e x).stg j = s.stg j :=
  tget_tput_other _ _ _ h

/-! ### A transaction slot is stored -/

@[simp] theorem setTxn_pending (i : Nat) (x : Txn) : (s.setTxn i x).pending = s.pending := rfl
@[simp] theorem setTxn_variant (i : Nat) (x : Txn) : (s.setTxn i x).variant = s.variant := rfl
@[simp] theorem setTxn_phase (i : Nat) (x : Txn) : (s.setTxn i x).phase = s.phase := rfl
@[simp] theorem setTxn_csr (i : Nat) (x : Txn) : (s.setTxn i x).csr = s.csr := rfl
@[simp] theorem setTxn_hidden (i : Nat) (x : Txn) : (s.setTxn i x).hidden = s.hidden := rfl
@[simp] theorem setTxn_latch (i : Nat) (x : Txn) : (s.setTxn i x).latch = s.latch := rfl
@[simp] theorem setTxn_mem (i : Nat) (x : Txn) : (s.setTxn i x).mem = s.mem := rfl
@[simp] theorem setTxn_resp (i : Nat) (x : Txn) : (s.setTxn i x).resp = s.resp := rfl
@[simp] theorem setTxn_arbLast (i : Nat) (x : Txn) : (s.setTxn i x).arbLast = s.arbLast := rfl
@[simp] theorem setTxn_now (i : Nat) (x : Txn) : (s.setTxn i x).now = s.now := rfl
@[simp] theorem setTxn_refCyc (i : Nat) (x : Txn) : (s.setTxn i x).refCyc = s.refCyc := rfl
@[simp] theorem setTxn_refNow (i : Nat) (x : Txn) : (s.setTxn i x).refNow = s.refNow := rfl
@[simp] theorem setTxn_draw (i : Nat) (x : Txn) : (s.setTxn i x).draw = s.draw := rfl
@[simp] theorem setTxn_heap (i : Nat) (x : Txn) : (s.setTxn i x).heap = s.heap := rfl
@[simp] theorem setTxn_heapSeq (i : Nat) (x : Txn) : (s.setTxn i x).heapSeq = s.heapSeq := rfl
@[simp] theorem setTxn_hmap (i : Nat) (x : Txn) : (s.setTxn i x).hmap = s.hmap := rfl
@[simp] theorem setTxn_midi (i : Nat) (x : Txn) : (s.setTxn i x).midi = s.midi := rfl
@[simp] theorem setTxn_paused (i : Nat) (x : Txn) : (s.setTxn i x).paused = s.paused := rfl
@[simp] theorem setTxn_slots (i : Nat) (x : Txn) : (s.setTxn i x).slots = s.slots := rfl
@[simp] theorem setTxn_tails (i : Nat) (x : Txn) : (s.setTxn i x).tails = s.tails := rfl
@[simp] theorem setTxn_parts (i : Nat) (x : Txn) : (s.setTxn i x).parts = s.parts := rfl
@[simp] theorem setTxn_ctxs (i : Nat) (x : Txn) : (s.setTxn i x).ctxs = s.ctxs := rfl
@[simp] theorem setTxn_budget (i : Nat) (x : Txn) : (s.setTxn i x).budget = s.budget := rfl
@[simp] theorem setTxn_progs (i : Nat) (x : Txn) : (s.setTxn i x).progs = s.progs := rfl
@[simp] theorem setTxn_cores (i : Nat) (x : Txn) : (s.setTxn i x).cores = s.cores := rfl
@[simp] theorem setTxn_intake (i : Nat) (x : Txn) : (s.setTxn i x).intake = s.intake := rfl
@[simp] theorem setTxn_readySeq (i : Nat) (x : Txn) : (s.setTxn i x).readySeq = s.readySeq := rfl
@[simp] theorem setTxn_runs (i : Nat) (x : Txn) : (s.setTxn i x).runs = s.runs := rfl
@[simp] theorem setTxn_taskOn (i : Nat) (x : Txn) : (s.setTxn i x).taskOn = s.taskOn := rfl
@[simp] theorem setTxn_pubs (i : Nat) (x : Txn) : (s.setTxn i x).pubs = s.pubs := rfl
@[simp] theorem setTxn_col (i : Nat) (x : Txn) : (s.setTxn i x).col = s.col := rfl
@[simp] theorem setTxn_dac (i : Nat) (x : Txn) : (s.setTxn i x).dac = s.dac := rfl
@[simp] theorem setTxn_clrPin (i : Nat) (x : Txn) : (s.setTxn i x).clrPin = s.clrPin := rfl
@[simp] theorem setTxn_mck (i : Nat) (x : Txn) : (s.setTxn i x).mck = s.mck := rfl
@[simp] theorem setTxn_ports (i : Nat) (x : Txn) : (s.setTxn i x).ports = s.ports := rfl
@[simp] theorem setTxn_commitSeq (i : Nat) (x : Txn) : (s.setTxn i x).commitSeq = s.commitSeq := rfl
@[simp] theorem setTxn_sems (i : Nat) (x : Txn) : (s.setTxn i x).sems = s.sems := rfl
@[simp] theorem setTxn_wsPend (i : Nat) (x : Txn) : (s.setTxn i x).wsPend = s.wsPend := rfl
@[simp] theorem setTxn_wsBusy (i : Nat) (x : Txn) : (s.setTxn i x).wsBusy = s.wsBusy := rfl
@[simp] theorem setTxn_wsAcc (i : Nat) (x : Txn) : (s.setTxn i x).wsAcc = s.wsAcc := rfl
@[simp] theorem setTxn_stalled (i : Nat) (x : Txn) : (s.setTxn i x).stalled = s.stalled := rfl
@[simp] theorem setTxn_uarts (i : Nat) (x : Txn) : (s.setTxn i x).uarts = s.uarts := rfl
@[simp] theorem setTxn_chks (i : Nat) (x : Txn) : (s.setTxn i x).chks = s.chks := rfl
@[simp] theorem setTxn_sec (i : Nat) (x : Txn) : (s.setTxn i x).sec = s.sec := rfl
@[simp] theorem setTxn_nvm (i : Nat) (x : Txn) : (s.setTxn i x).nvm = s.nvm := rfl
@[simp] theorem setTxn_age (i : Nat) (x : Txn) : (s.setTxn i x).age = s.age := rfl
@[simp] theorem setTxn_stgs (i : Nat) (x : Txn) : (s.setTxn i x).stgs = s.stgs := rfl
@[simp] theorem setTxn_psuEn (i : Nat) (x : Txn) : (s.setTxn i x).psuEn = s.psuEn := rfl
@[simp] theorem setTxn_sagActed (i : Nat) (x : Txn) : (s.setTxn i x).sagActed = s.sagActed := rfl
@[simp] theorem setTxn_sagHeld (i : Nat) (x : Txn) : (s.setTxn i x).sagHeld = s.sagHeld := rfl
@[simp] theorem setTxn_mute (i : Nat) (x : Txn) : (s.setTxn i x).mute = s.mute := rfl
@[simp] theorem setTxn_sagRelease (i : Nat) (x : Txn) : (s.setTxn i x).sagRelease = s.sagRelease := rfl
@[simp] theorem setTxn_sagCut (i : Nat) (x : Txn) : (s.setTxn i x).sagCut = s.sagCut := rfl
@[simp] theorem setTxn_posted (i : Nat) (x : Txn) : (s.setTxn i x).posted = s.posted := rfl
@[simp] theorem setTxn_slotResp (i : Nat) (x : Txn) : (s.setTxn i x).slotResp = s.slotResp := rfl
@[simp] theorem setTxn_refAll (i : Nat) (x : Txn) : (s.setTxn i x).refAll = s.refAll := rfl
@[simp] theorem setTxn_refEnd (i : Nat) (x : Txn) : (s.setTxn i x).refEnd = s.refEnd := rfl
@[simp] theorem setTxn_strobes (i : Nat) (x : Txn) : (s.setTxn i x).strobes = s.strobes := rfl
@[simp] theorem setTxn_evals (i : Nat) (x : Txn) : (s.setTxn i x).evals = s.evals := rfl
@[simp] theorem setTxn_clrSeen (i : Nat) (x : Txn) : (s.setTxn i x).clrSeen = s.clrSeen := rfl

@[simp] theorem setTxn_txn_same (i : Nat) (x : Txn) : (s.setTxn i x).txn i = x := tget_tput_same ..
theorem setTxn_txn_other {i j : Nat} (h : j ≠ i) (x : Txn) : (s.setTxn i x).txn j = s.txn j :=
  tget_tput_other _ _ _ h

/-! ### A UART is stored -/

@[simp] theorem setUart_pending (u : Nat) (x : Uart) : (s.setUart u x).pending = s.pending := rfl
@[simp] theorem setUart_variant (u : Nat) (x : Uart) : (s.setUart u x).variant = s.variant := rfl
@[simp] theorem setUart_phase (u : Nat) (x : Uart) : (s.setUart u x).phase = s.phase := rfl
@[simp] theorem setUart_csr (u : Nat) (x : Uart) : (s.setUart u x).csr = s.csr := rfl
@[simp] theorem setUart_hidden (u : Nat) (x : Uart) : (s.setUart u x).hidden = s.hidden := rfl
@[simp] theorem setUart_latch (u : Nat) (x : Uart) : (s.setUart u x).latch = s.latch := rfl
@[simp] theorem setUart_mem (u : Nat) (x : Uart) : (s.setUart u x).mem = s.mem := rfl
@[simp] theorem setUart_resp (u : Nat) (x : Uart) : (s.setUart u x).resp = s.resp := rfl
@[simp] theorem setUart_arbLast (u : Nat) (x : Uart) : (s.setUart u x).arbLast = s.arbLast := rfl
@[simp] theorem setUart_now (u : Nat) (x : Uart) : (s.setUart u x).now = s.now := rfl
@[simp] theorem setUart_refCyc (u : Nat) (x : Uart) : (s.setUart u x).refCyc = s.refCyc := rfl
@[simp] theorem setUart_refNow (u : Nat) (x : Uart) : (s.setUart u x).refNow = s.refNow := rfl
@[simp] theorem setUart_draw (u : Nat) (x : Uart) : (s.setUart u x).draw = s.draw := rfl
@[simp] theorem setUart_heap (u : Nat) (x : Uart) : (s.setUart u x).heap = s.heap := rfl
@[simp] theorem setUart_heapSeq (u : Nat) (x : Uart) : (s.setUart u x).heapSeq = s.heapSeq := rfl
@[simp] theorem setUart_hmap (u : Nat) (x : Uart) : (s.setUart u x).hmap = s.hmap := rfl
@[simp] theorem setUart_midi (u : Nat) (x : Uart) : (s.setUart u x).midi = s.midi := rfl
@[simp] theorem setUart_paused (u : Nat) (x : Uart) : (s.setUart u x).paused = s.paused := rfl
@[simp] theorem setUart_slots (u : Nat) (x : Uart) : (s.setUart u x).slots = s.slots := rfl
@[simp] theorem setUart_tails (u : Nat) (x : Uart) : (s.setUart u x).tails = s.tails := rfl
@[simp] theorem setUart_parts (u : Nat) (x : Uart) : (s.setUart u x).parts = s.parts := rfl
@[simp] theorem setUart_ctxs (u : Nat) (x : Uart) : (s.setUart u x).ctxs = s.ctxs := rfl
@[simp] theorem setUart_budget (u : Nat) (x : Uart) : (s.setUart u x).budget = s.budget := rfl
@[simp] theorem setUart_progs (u : Nat) (x : Uart) : (s.setUart u x).progs = s.progs := rfl
@[simp] theorem setUart_cores (u : Nat) (x : Uart) : (s.setUart u x).cores = s.cores := rfl
@[simp] theorem setUart_intake (u : Nat) (x : Uart) : (s.setUart u x).intake = s.intake := rfl
@[simp] theorem setUart_readySeq (u : Nat) (x : Uart) : (s.setUart u x).readySeq = s.readySeq := rfl
@[simp] theorem setUart_runs (u : Nat) (x : Uart) : (s.setUart u x).runs = s.runs := rfl
@[simp] theorem setUart_taskOn (u : Nat) (x : Uart) : (s.setUart u x).taskOn = s.taskOn := rfl
@[simp] theorem setUart_pubs (u : Nat) (x : Uart) : (s.setUart u x).pubs = s.pubs := rfl
@[simp] theorem setUart_col (u : Nat) (x : Uart) : (s.setUart u x).col = s.col := rfl
@[simp] theorem setUart_dac (u : Nat) (x : Uart) : (s.setUart u x).dac = s.dac := rfl
@[simp] theorem setUart_clrPin (u : Nat) (x : Uart) : (s.setUart u x).clrPin = s.clrPin := rfl
@[simp] theorem setUart_mck (u : Nat) (x : Uart) : (s.setUart u x).mck = s.mck := rfl
@[simp] theorem setUart_ports (u : Nat) (x : Uart) : (s.setUart u x).ports = s.ports := rfl
@[simp] theorem setUart_txns (u : Nat) (x : Uart) : (s.setUart u x).txns = s.txns := rfl
@[simp] theorem setUart_commitSeq (u : Nat) (x : Uart) : (s.setUart u x).commitSeq = s.commitSeq := rfl
@[simp] theorem setUart_sems (u : Nat) (x : Uart) : (s.setUart u x).sems = s.sems := rfl
@[simp] theorem setUart_wsPend (u : Nat) (x : Uart) : (s.setUart u x).wsPend = s.wsPend := rfl
@[simp] theorem setUart_wsBusy (u : Nat) (x : Uart) : (s.setUart u x).wsBusy = s.wsBusy := rfl
@[simp] theorem setUart_wsAcc (u : Nat) (x : Uart) : (s.setUart u x).wsAcc = s.wsAcc := rfl
@[simp] theorem setUart_stalled (u : Nat) (x : Uart) : (s.setUart u x).stalled = s.stalled := rfl
@[simp] theorem setUart_chks (u : Nat) (x : Uart) : (s.setUart u x).chks = s.chks := rfl
@[simp] theorem setUart_sec (u : Nat) (x : Uart) : (s.setUart u x).sec = s.sec := rfl
@[simp] theorem setUart_nvm (u : Nat) (x : Uart) : (s.setUart u x).nvm = s.nvm := rfl
@[simp] theorem setUart_age (u : Nat) (x : Uart) : (s.setUart u x).age = s.age := rfl
@[simp] theorem setUart_stgs (u : Nat) (x : Uart) : (s.setUart u x).stgs = s.stgs := rfl
@[simp] theorem setUart_psuEn (u : Nat) (x : Uart) : (s.setUart u x).psuEn = s.psuEn := rfl
@[simp] theorem setUart_sagActed (u : Nat) (x : Uart) : (s.setUart u x).sagActed = s.sagActed := rfl
@[simp] theorem setUart_sagHeld (u : Nat) (x : Uart) : (s.setUart u x).sagHeld = s.sagHeld := rfl
@[simp] theorem setUart_mute (u : Nat) (x : Uart) : (s.setUart u x).mute = s.mute := rfl
@[simp] theorem setUart_sagRelease (u : Nat) (x : Uart) : (s.setUart u x).sagRelease = s.sagRelease := rfl
@[simp] theorem setUart_sagCut (u : Nat) (x : Uart) : (s.setUart u x).sagCut = s.sagCut := rfl
@[simp] theorem setUart_posted (u : Nat) (x : Uart) : (s.setUart u x).posted = s.posted := rfl
@[simp] theorem setUart_slotResp (u : Nat) (x : Uart) : (s.setUart u x).slotResp = s.slotResp := rfl
@[simp] theorem setUart_refAll (u : Nat) (x : Uart) : (s.setUart u x).refAll = s.refAll := rfl
@[simp] theorem setUart_refEnd (u : Nat) (x : Uart) : (s.setUart u x).refEnd = s.refEnd := rfl
@[simp] theorem setUart_strobes (u : Nat) (x : Uart) : (s.setUart u x).strobes = s.strobes := rfl
@[simp] theorem setUart_evals (u : Nat) (x : Uart) : (s.setUart u x).evals = s.evals := rfl
@[simp] theorem setUart_clrSeen (u : Nat) (x : Uart) : (s.setUart u x).clrSeen = s.clrSeen := rfl

@[simp] theorem setUart_uart_same (u : Nat) (x : Uart) : (s.setUart u x).uart u = x := tget_tput_same ..
theorem setUart_uart_other {u j : Nat} (h : j ≠ u) (x : Uart) : (s.setUart u x).uart j = s.uart j :=
  tget_tput_other _ _ _ h

/-! ### A check unit is stored -/

@[simp] theorem setChk_pending (k : Nat) (x : Chk) : (s.setChk k x).pending = s.pending := rfl
@[simp] theorem setChk_variant (k : Nat) (x : Chk) : (s.setChk k x).variant = s.variant := rfl
@[simp] theorem setChk_phase (k : Nat) (x : Chk) : (s.setChk k x).phase = s.phase := rfl
@[simp] theorem setChk_csr (k : Nat) (x : Chk) : (s.setChk k x).csr = s.csr := rfl
@[simp] theorem setChk_hidden (k : Nat) (x : Chk) : (s.setChk k x).hidden = s.hidden := rfl
@[simp] theorem setChk_latch (k : Nat) (x : Chk) : (s.setChk k x).latch = s.latch := rfl
@[simp] theorem setChk_mem (k : Nat) (x : Chk) : (s.setChk k x).mem = s.mem := rfl
@[simp] theorem setChk_resp (k : Nat) (x : Chk) : (s.setChk k x).resp = s.resp := rfl
@[simp] theorem setChk_arbLast (k : Nat) (x : Chk) : (s.setChk k x).arbLast = s.arbLast := rfl
@[simp] theorem setChk_now (k : Nat) (x : Chk) : (s.setChk k x).now = s.now := rfl
@[simp] theorem setChk_refCyc (k : Nat) (x : Chk) : (s.setChk k x).refCyc = s.refCyc := rfl
@[simp] theorem setChk_refNow (k : Nat) (x : Chk) : (s.setChk k x).refNow = s.refNow := rfl
@[simp] theorem setChk_draw (k : Nat) (x : Chk) : (s.setChk k x).draw = s.draw := rfl
@[simp] theorem setChk_heap (k : Nat) (x : Chk) : (s.setChk k x).heap = s.heap := rfl
@[simp] theorem setChk_heapSeq (k : Nat) (x : Chk) : (s.setChk k x).heapSeq = s.heapSeq := rfl
@[simp] theorem setChk_hmap (k : Nat) (x : Chk) : (s.setChk k x).hmap = s.hmap := rfl
@[simp] theorem setChk_midi (k : Nat) (x : Chk) : (s.setChk k x).midi = s.midi := rfl
@[simp] theorem setChk_paused (k : Nat) (x : Chk) : (s.setChk k x).paused = s.paused := rfl
@[simp] theorem setChk_slots (k : Nat) (x : Chk) : (s.setChk k x).slots = s.slots := rfl
@[simp] theorem setChk_tails (k : Nat) (x : Chk) : (s.setChk k x).tails = s.tails := rfl
@[simp] theorem setChk_parts (k : Nat) (x : Chk) : (s.setChk k x).parts = s.parts := rfl
@[simp] theorem setChk_ctxs (k : Nat) (x : Chk) : (s.setChk k x).ctxs = s.ctxs := rfl
@[simp] theorem setChk_budget (k : Nat) (x : Chk) : (s.setChk k x).budget = s.budget := rfl
@[simp] theorem setChk_progs (k : Nat) (x : Chk) : (s.setChk k x).progs = s.progs := rfl
@[simp] theorem setChk_cores (k : Nat) (x : Chk) : (s.setChk k x).cores = s.cores := rfl
@[simp] theorem setChk_intake (k : Nat) (x : Chk) : (s.setChk k x).intake = s.intake := rfl
@[simp] theorem setChk_readySeq (k : Nat) (x : Chk) : (s.setChk k x).readySeq = s.readySeq := rfl
@[simp] theorem setChk_runs (k : Nat) (x : Chk) : (s.setChk k x).runs = s.runs := rfl
@[simp] theorem setChk_taskOn (k : Nat) (x : Chk) : (s.setChk k x).taskOn = s.taskOn := rfl
@[simp] theorem setChk_pubs (k : Nat) (x : Chk) : (s.setChk k x).pubs = s.pubs := rfl
@[simp] theorem setChk_col (k : Nat) (x : Chk) : (s.setChk k x).col = s.col := rfl
@[simp] theorem setChk_dac (k : Nat) (x : Chk) : (s.setChk k x).dac = s.dac := rfl
@[simp] theorem setChk_clrPin (k : Nat) (x : Chk) : (s.setChk k x).clrPin = s.clrPin := rfl
@[simp] theorem setChk_mck (k : Nat) (x : Chk) : (s.setChk k x).mck = s.mck := rfl
@[simp] theorem setChk_ports (k : Nat) (x : Chk) : (s.setChk k x).ports = s.ports := rfl
@[simp] theorem setChk_txns (k : Nat) (x : Chk) : (s.setChk k x).txns = s.txns := rfl
@[simp] theorem setChk_commitSeq (k : Nat) (x : Chk) : (s.setChk k x).commitSeq = s.commitSeq := rfl
@[simp] theorem setChk_sems (k : Nat) (x : Chk) : (s.setChk k x).sems = s.sems := rfl
@[simp] theorem setChk_wsPend (k : Nat) (x : Chk) : (s.setChk k x).wsPend = s.wsPend := rfl
@[simp] theorem setChk_wsBusy (k : Nat) (x : Chk) : (s.setChk k x).wsBusy = s.wsBusy := rfl
@[simp] theorem setChk_wsAcc (k : Nat) (x : Chk) : (s.setChk k x).wsAcc = s.wsAcc := rfl
@[simp] theorem setChk_stalled (k : Nat) (x : Chk) : (s.setChk k x).stalled = s.stalled := rfl
@[simp] theorem setChk_uarts (k : Nat) (x : Chk) : (s.setChk k x).uarts = s.uarts := rfl
@[simp] theorem setChk_sec (k : Nat) (x : Chk) : (s.setChk k x).sec = s.sec := rfl
@[simp] theorem setChk_nvm (k : Nat) (x : Chk) : (s.setChk k x).nvm = s.nvm := rfl
@[simp] theorem setChk_age (k : Nat) (x : Chk) : (s.setChk k x).age = s.age := rfl
@[simp] theorem setChk_stgs (k : Nat) (x : Chk) : (s.setChk k x).stgs = s.stgs := rfl
@[simp] theorem setChk_psuEn (k : Nat) (x : Chk) : (s.setChk k x).psuEn = s.psuEn := rfl
@[simp] theorem setChk_sagActed (k : Nat) (x : Chk) : (s.setChk k x).sagActed = s.sagActed := rfl
@[simp] theorem setChk_sagHeld (k : Nat) (x : Chk) : (s.setChk k x).sagHeld = s.sagHeld := rfl
@[simp] theorem setChk_mute (k : Nat) (x : Chk) : (s.setChk k x).mute = s.mute := rfl
@[simp] theorem setChk_sagRelease (k : Nat) (x : Chk) : (s.setChk k x).sagRelease = s.sagRelease := rfl
@[simp] theorem setChk_sagCut (k : Nat) (x : Chk) : (s.setChk k x).sagCut = s.sagCut := rfl
@[simp] theorem setChk_posted (k : Nat) (x : Chk) : (s.setChk k x).posted = s.posted := rfl
@[simp] theorem setChk_slotResp (k : Nat) (x : Chk) : (s.setChk k x).slotResp = s.slotResp := rfl
@[simp] theorem setChk_refAll (k : Nat) (x : Chk) : (s.setChk k x).refAll = s.refAll := rfl
@[simp] theorem setChk_refEnd (k : Nat) (x : Chk) : (s.setChk k x).refEnd = s.refEnd := rfl
@[simp] theorem setChk_strobes (k : Nat) (x : Chk) : (s.setChk k x).strobes = s.strobes := rfl
@[simp] theorem setChk_evals (k : Nat) (x : Chk) : (s.setChk k x).evals = s.evals := rfl
@[simp] theorem setChk_clrSeen (k : Nat) (x : Chk) : (s.setChk k x).clrSeen = s.clrSeen := rfl

@[simp] theorem setChk_chk_same (k : Nat) (x : Chk) : (s.setChk k x).chk k = x := tget_tput_same ..
theorem setChk_chk_other {k j : Nat} (h : j ≠ k) (x : Chk) : (s.setChk k x).chk j = s.chk j :=
  tget_tput_other _ _ _ h

/-! ### A converter channel is stored -/

@[simp] theorem setDacCh_pending (c : Nat) (x : DacCh) : (s.setDacCh c x).pending = s.pending := rfl
@[simp] theorem setDacCh_variant (c : Nat) (x : DacCh) : (s.setDacCh c x).variant = s.variant := rfl
@[simp] theorem setDacCh_phase (c : Nat) (x : DacCh) : (s.setDacCh c x).phase = s.phase := rfl
@[simp] theorem setDacCh_csr (c : Nat) (x : DacCh) : (s.setDacCh c x).csr = s.csr := rfl
@[simp] theorem setDacCh_hidden (c : Nat) (x : DacCh) : (s.setDacCh c x).hidden = s.hidden := rfl
@[simp] theorem setDacCh_latch (c : Nat) (x : DacCh) : (s.setDacCh c x).latch = s.latch := rfl
@[simp] theorem setDacCh_mem (c : Nat) (x : DacCh) : (s.setDacCh c x).mem = s.mem := rfl
@[simp] theorem setDacCh_resp (c : Nat) (x : DacCh) : (s.setDacCh c x).resp = s.resp := rfl
@[simp] theorem setDacCh_arbLast (c : Nat) (x : DacCh) : (s.setDacCh c x).arbLast = s.arbLast := rfl
@[simp] theorem setDacCh_now (c : Nat) (x : DacCh) : (s.setDacCh c x).now = s.now := rfl
@[simp] theorem setDacCh_refCyc (c : Nat) (x : DacCh) : (s.setDacCh c x).refCyc = s.refCyc := rfl
@[simp] theorem setDacCh_refNow (c : Nat) (x : DacCh) : (s.setDacCh c x).refNow = s.refNow := rfl
@[simp] theorem setDacCh_draw (c : Nat) (x : DacCh) : (s.setDacCh c x).draw = s.draw := rfl
@[simp] theorem setDacCh_heap (c : Nat) (x : DacCh) : (s.setDacCh c x).heap = s.heap := rfl
@[simp] theorem setDacCh_heapSeq (c : Nat) (x : DacCh) : (s.setDacCh c x).heapSeq = s.heapSeq := rfl
@[simp] theorem setDacCh_hmap (c : Nat) (x : DacCh) : (s.setDacCh c x).hmap = s.hmap := rfl
@[simp] theorem setDacCh_midi (c : Nat) (x : DacCh) : (s.setDacCh c x).midi = s.midi := rfl
@[simp] theorem setDacCh_paused (c : Nat) (x : DacCh) : (s.setDacCh c x).paused = s.paused := rfl
@[simp] theorem setDacCh_slots (c : Nat) (x : DacCh) : (s.setDacCh c x).slots = s.slots := rfl
@[simp] theorem setDacCh_tails (c : Nat) (x : DacCh) : (s.setDacCh c x).tails = s.tails := rfl
@[simp] theorem setDacCh_parts (c : Nat) (x : DacCh) : (s.setDacCh c x).parts = s.parts := rfl
@[simp] theorem setDacCh_ctxs (c : Nat) (x : DacCh) : (s.setDacCh c x).ctxs = s.ctxs := rfl
@[simp] theorem setDacCh_budget (c : Nat) (x : DacCh) : (s.setDacCh c x).budget = s.budget := rfl
@[simp] theorem setDacCh_progs (c : Nat) (x : DacCh) : (s.setDacCh c x).progs = s.progs := rfl
@[simp] theorem setDacCh_cores (c : Nat) (x : DacCh) : (s.setDacCh c x).cores = s.cores := rfl
@[simp] theorem setDacCh_intake (c : Nat) (x : DacCh) : (s.setDacCh c x).intake = s.intake := rfl
@[simp] theorem setDacCh_readySeq (c : Nat) (x : DacCh) : (s.setDacCh c x).readySeq = s.readySeq := rfl
@[simp] theorem setDacCh_runs (c : Nat) (x : DacCh) : (s.setDacCh c x).runs = s.runs := rfl
@[simp] theorem setDacCh_taskOn (c : Nat) (x : DacCh) : (s.setDacCh c x).taskOn = s.taskOn := rfl
@[simp] theorem setDacCh_pubs (c : Nat) (x : DacCh) : (s.setDacCh c x).pubs = s.pubs := rfl
@[simp] theorem setDacCh_col (c : Nat) (x : DacCh) : (s.setDacCh c x).col = s.col := rfl
@[simp] theorem setDacCh_clrPin (c : Nat) (x : DacCh) : (s.setDacCh c x).clrPin = s.clrPin := rfl
@[simp] theorem setDacCh_mck (c : Nat) (x : DacCh) : (s.setDacCh c x).mck = s.mck := rfl
@[simp] theorem setDacCh_ports (c : Nat) (x : DacCh) : (s.setDacCh c x).ports = s.ports := rfl
@[simp] theorem setDacCh_txns (c : Nat) (x : DacCh) : (s.setDacCh c x).txns = s.txns := rfl
@[simp] theorem setDacCh_commitSeq (c : Nat) (x : DacCh) : (s.setDacCh c x).commitSeq = s.commitSeq := rfl
@[simp] theorem setDacCh_sems (c : Nat) (x : DacCh) : (s.setDacCh c x).sems = s.sems := rfl
@[simp] theorem setDacCh_wsPend (c : Nat) (x : DacCh) : (s.setDacCh c x).wsPend = s.wsPend := rfl
@[simp] theorem setDacCh_wsBusy (c : Nat) (x : DacCh) : (s.setDacCh c x).wsBusy = s.wsBusy := rfl
@[simp] theorem setDacCh_wsAcc (c : Nat) (x : DacCh) : (s.setDacCh c x).wsAcc = s.wsAcc := rfl
@[simp] theorem setDacCh_stalled (c : Nat) (x : DacCh) : (s.setDacCh c x).stalled = s.stalled := rfl
@[simp] theorem setDacCh_uarts (c : Nat) (x : DacCh) : (s.setDacCh c x).uarts = s.uarts := rfl
@[simp] theorem setDacCh_chks (c : Nat) (x : DacCh) : (s.setDacCh c x).chks = s.chks := rfl
@[simp] theorem setDacCh_sec (c : Nat) (x : DacCh) : (s.setDacCh c x).sec = s.sec := rfl
@[simp] theorem setDacCh_nvm (c : Nat) (x : DacCh) : (s.setDacCh c x).nvm = s.nvm := rfl
@[simp] theorem setDacCh_age (c : Nat) (x : DacCh) : (s.setDacCh c x).age = s.age := rfl
@[simp] theorem setDacCh_stgs (c : Nat) (x : DacCh) : (s.setDacCh c x).stgs = s.stgs := rfl
@[simp] theorem setDacCh_psuEn (c : Nat) (x : DacCh) : (s.setDacCh c x).psuEn = s.psuEn := rfl
@[simp] theorem setDacCh_sagActed (c : Nat) (x : DacCh) : (s.setDacCh c x).sagActed = s.sagActed := rfl
@[simp] theorem setDacCh_sagHeld (c : Nat) (x : DacCh) : (s.setDacCh c x).sagHeld = s.sagHeld := rfl
@[simp] theorem setDacCh_mute (c : Nat) (x : DacCh) : (s.setDacCh c x).mute = s.mute := rfl
@[simp] theorem setDacCh_sagRelease (c : Nat) (x : DacCh) : (s.setDacCh c x).sagRelease = s.sagRelease := rfl
@[simp] theorem setDacCh_sagCut (c : Nat) (x : DacCh) : (s.setDacCh c x).sagCut = s.sagCut := rfl
@[simp] theorem setDacCh_posted (c : Nat) (x : DacCh) : (s.setDacCh c x).posted = s.posted := rfl
@[simp] theorem setDacCh_slotResp (c : Nat) (x : DacCh) : (s.setDacCh c x).slotResp = s.slotResp := rfl
@[simp] theorem setDacCh_refAll (c : Nat) (x : DacCh) : (s.setDacCh c x).refAll = s.refAll := rfl
@[simp] theorem setDacCh_refEnd (c : Nat) (x : DacCh) : (s.setDacCh c x).refEnd = s.refEnd := rfl
@[simp] theorem setDacCh_strobes (c : Nat) (x : DacCh) : (s.setDacCh c x).strobes = s.strobes := rfl
@[simp] theorem setDacCh_evals (c : Nat) (x : DacCh) : (s.setDacCh c x).evals = s.evals := rfl
@[simp] theorem setDacCh_clrSeen (c : Nat) (x : DacCh) : (s.setDacCh c x).clrSeen = s.clrSeen := rfl

@[simp] theorem setDacCh_dacCh_same (c : Nat) (x : DacCh) : (s.setDacCh c x).dacCh c = x := tget_tput_same ..
theorem setDacCh_dacCh_other {c j : Nat} (h : j ≠ c) (x : DacCh) : (s.setDacCh c x).dacCh j = s.dacCh j :=
  tget_tput_other _ _ _ h

/-! ### A host mapping is stored -/

@[simp] theorem setHm_pending (p : Nat) (x : HostMap) : (s.setHm p x).pending = s.pending := rfl
@[simp] theorem setHm_variant (p : Nat) (x : HostMap) : (s.setHm p x).variant = s.variant := rfl
@[simp] theorem setHm_phase (p : Nat) (x : HostMap) : (s.setHm p x).phase = s.phase := rfl
@[simp] theorem setHm_csr (p : Nat) (x : HostMap) : (s.setHm p x).csr = s.csr := rfl
@[simp] theorem setHm_hidden (p : Nat) (x : HostMap) : (s.setHm p x).hidden = s.hidden := rfl
@[simp] theorem setHm_latch (p : Nat) (x : HostMap) : (s.setHm p x).latch = s.latch := rfl
@[simp] theorem setHm_mem (p : Nat) (x : HostMap) : (s.setHm p x).mem = s.mem := rfl
@[simp] theorem setHm_resp (p : Nat) (x : HostMap) : (s.setHm p x).resp = s.resp := rfl
@[simp] theorem setHm_arbLast (p : Nat) (x : HostMap) : (s.setHm p x).arbLast = s.arbLast := rfl
@[simp] theorem setHm_now (p : Nat) (x : HostMap) : (s.setHm p x).now = s.now := rfl
@[simp] theorem setHm_refCyc (p : Nat) (x : HostMap) : (s.setHm p x).refCyc = s.refCyc := rfl
@[simp] theorem setHm_refNow (p : Nat) (x : HostMap) : (s.setHm p x).refNow = s.refNow := rfl
@[simp] theorem setHm_draw (p : Nat) (x : HostMap) : (s.setHm p x).draw = s.draw := rfl
@[simp] theorem setHm_heap (p : Nat) (x : HostMap) : (s.setHm p x).heap = s.heap := rfl
@[simp] theorem setHm_heapSeq (p : Nat) (x : HostMap) : (s.setHm p x).heapSeq = s.heapSeq := rfl
@[simp] theorem setHm_midi (p : Nat) (x : HostMap) : (s.setHm p x).midi = s.midi := rfl
@[simp] theorem setHm_paused (p : Nat) (x : HostMap) : (s.setHm p x).paused = s.paused := rfl
@[simp] theorem setHm_slots (p : Nat) (x : HostMap) : (s.setHm p x).slots = s.slots := rfl
@[simp] theorem setHm_tails (p : Nat) (x : HostMap) : (s.setHm p x).tails = s.tails := rfl
@[simp] theorem setHm_parts (p : Nat) (x : HostMap) : (s.setHm p x).parts = s.parts := rfl
@[simp] theorem setHm_ctxs (p : Nat) (x : HostMap) : (s.setHm p x).ctxs = s.ctxs := rfl
@[simp] theorem setHm_budget (p : Nat) (x : HostMap) : (s.setHm p x).budget = s.budget := rfl
@[simp] theorem setHm_progs (p : Nat) (x : HostMap) : (s.setHm p x).progs = s.progs := rfl
@[simp] theorem setHm_cores (p : Nat) (x : HostMap) : (s.setHm p x).cores = s.cores := rfl
@[simp] theorem setHm_intake (p : Nat) (x : HostMap) : (s.setHm p x).intake = s.intake := rfl
@[simp] theorem setHm_readySeq (p : Nat) (x : HostMap) : (s.setHm p x).readySeq = s.readySeq := rfl
@[simp] theorem setHm_runs (p : Nat) (x : HostMap) : (s.setHm p x).runs = s.runs := rfl
@[simp] theorem setHm_taskOn (p : Nat) (x : HostMap) : (s.setHm p x).taskOn = s.taskOn := rfl
@[simp] theorem setHm_pubs (p : Nat) (x : HostMap) : (s.setHm p x).pubs = s.pubs := rfl
@[simp] theorem setHm_col (p : Nat) (x : HostMap) : (s.setHm p x).col = s.col := rfl
@[simp] theorem setHm_dac (p : Nat) (x : HostMap) : (s.setHm p x).dac = s.dac := rfl
@[simp] theorem setHm_clrPin (p : Nat) (x : HostMap) : (s.setHm p x).clrPin = s.clrPin := rfl
@[simp] theorem setHm_mck (p : Nat) (x : HostMap) : (s.setHm p x).mck = s.mck := rfl
@[simp] theorem setHm_ports (p : Nat) (x : HostMap) : (s.setHm p x).ports = s.ports := rfl
@[simp] theorem setHm_txns (p : Nat) (x : HostMap) : (s.setHm p x).txns = s.txns := rfl
@[simp] theorem setHm_commitSeq (p : Nat) (x : HostMap) : (s.setHm p x).commitSeq = s.commitSeq := rfl
@[simp] theorem setHm_sems (p : Nat) (x : HostMap) : (s.setHm p x).sems = s.sems := rfl
@[simp] theorem setHm_wsPend (p : Nat) (x : HostMap) : (s.setHm p x).wsPend = s.wsPend := rfl
@[simp] theorem setHm_wsBusy (p : Nat) (x : HostMap) : (s.setHm p x).wsBusy = s.wsBusy := rfl
@[simp] theorem setHm_wsAcc (p : Nat) (x : HostMap) : (s.setHm p x).wsAcc = s.wsAcc := rfl
@[simp] theorem setHm_stalled (p : Nat) (x : HostMap) : (s.setHm p x).stalled = s.stalled := rfl
@[simp] theorem setHm_uarts (p : Nat) (x : HostMap) : (s.setHm p x).uarts = s.uarts := rfl
@[simp] theorem setHm_chks (p : Nat) (x : HostMap) : (s.setHm p x).chks = s.chks := rfl
@[simp] theorem setHm_sec (p : Nat) (x : HostMap) : (s.setHm p x).sec = s.sec := rfl
@[simp] theorem setHm_nvm (p : Nat) (x : HostMap) : (s.setHm p x).nvm = s.nvm := rfl
@[simp] theorem setHm_age (p : Nat) (x : HostMap) : (s.setHm p x).age = s.age := rfl
@[simp] theorem setHm_stgs (p : Nat) (x : HostMap) : (s.setHm p x).stgs = s.stgs := rfl
@[simp] theorem setHm_psuEn (p : Nat) (x : HostMap) : (s.setHm p x).psuEn = s.psuEn := rfl
@[simp] theorem setHm_sagActed (p : Nat) (x : HostMap) : (s.setHm p x).sagActed = s.sagActed := rfl
@[simp] theorem setHm_sagHeld (p : Nat) (x : HostMap) : (s.setHm p x).sagHeld = s.sagHeld := rfl
@[simp] theorem setHm_mute (p : Nat) (x : HostMap) : (s.setHm p x).mute = s.mute := rfl
@[simp] theorem setHm_sagRelease (p : Nat) (x : HostMap) : (s.setHm p x).sagRelease = s.sagRelease := rfl
@[simp] theorem setHm_sagCut (p : Nat) (x : HostMap) : (s.setHm p x).sagCut = s.sagCut := rfl
@[simp] theorem setHm_posted (p : Nat) (x : HostMap) : (s.setHm p x).posted = s.posted := rfl
@[simp] theorem setHm_slotResp (p : Nat) (x : HostMap) : (s.setHm p x).slotResp = s.slotResp := rfl
@[simp] theorem setHm_refAll (p : Nat) (x : HostMap) : (s.setHm p x).refAll = s.refAll := rfl
@[simp] theorem setHm_refEnd (p : Nat) (x : HostMap) : (s.setHm p x).refEnd = s.refEnd := rfl
@[simp] theorem setHm_strobes (p : Nat) (x : HostMap) : (s.setHm p x).strobes = s.strobes := rfl
@[simp] theorem setHm_evals (p : Nat) (x : HostMap) : (s.setHm p x).evals = s.evals := rfl
@[simp] theorem setHm_clrSeen (p : Nat) (x : HostMap) : (s.setHm p x).clrSeen = s.clrSeen := rfl

@[simp] theorem setHm_hm_same (p : Nat) (x : HostMap) : (s.setHm p x).hm p = x := tget_tput_same ..
theorem setHm_hm_other {p j : Nat} (h : j ≠ p) (x : HostMap) : (s.setHm p x).hm j = s.hm j :=
  tget_tput_other _ _ _ h

/-! ### A semaphore is stored -/

@[simp] theorem setHolder_pending (n : Nat) (q : Option Req) : (s.setHolder n q).pending = s.pending := rfl
@[simp] theorem setHolder_variant (n : Nat) (q : Option Req) : (s.setHolder n q).variant = s.variant := rfl
@[simp] theorem setHolder_phase (n : Nat) (q : Option Req) : (s.setHolder n q).phase = s.phase := rfl
@[simp] theorem setHolder_csr (n : Nat) (q : Option Req) : (s.setHolder n q).csr = s.csr := rfl
@[simp] theorem setHolder_hidden (n : Nat) (q : Option Req) : (s.setHolder n q).hidden = s.hidden := rfl
@[simp] theorem setHolder_latch (n : Nat) (q : Option Req) : (s.setHolder n q).latch = s.latch := rfl
@[simp] theorem setHolder_mem (n : Nat) (q : Option Req) : (s.setHolder n q).mem = s.mem := rfl
@[simp] theorem setHolder_resp (n : Nat) (q : Option Req) : (s.setHolder n q).resp = s.resp := rfl
@[simp] theorem setHolder_arbLast (n : Nat) (q : Option Req) : (s.setHolder n q).arbLast = s.arbLast := rfl
@[simp] theorem setHolder_now (n : Nat) (q : Option Req) : (s.setHolder n q).now = s.now := rfl
@[simp] theorem setHolder_refCyc (n : Nat) (q : Option Req) : (s.setHolder n q).refCyc = s.refCyc := rfl
@[simp] theorem setHolder_refNow (n : Nat) (q : Option Req) : (s.setHolder n q).refNow = s.refNow := rfl
@[simp] theorem setHolder_draw (n : Nat) (q : Option Req) : (s.setHolder n q).draw = s.draw := rfl
@[simp] theorem setHolder_heap (n : Nat) (q : Option Req) : (s.setHolder n q).heap = s.heap := rfl
@[simp] theorem setHolder_heapSeq (n : Nat) (q : Option Req) : (s.setHolder n q).heapSeq = s.heapSeq := rfl
@[simp] theorem setHolder_hmap (n : Nat) (q : Option Req) : (s.setHolder n q).hmap = s.hmap := rfl
@[simp] theorem setHolder_midi (n : Nat) (q : Option Req) : (s.setHolder n q).midi = s.midi := rfl
@[simp] theorem setHolder_paused (n : Nat) (q : Option Req) : (s.setHolder n q).paused = s.paused := rfl
@[simp] theorem setHolder_slots (n : Nat) (q : Option Req) : (s.setHolder n q).slots = s.slots := rfl
@[simp] theorem setHolder_tails (n : Nat) (q : Option Req) : (s.setHolder n q).tails = s.tails := rfl
@[simp] theorem setHolder_parts (n : Nat) (q : Option Req) : (s.setHolder n q).parts = s.parts := rfl
@[simp] theorem setHolder_ctxs (n : Nat) (q : Option Req) : (s.setHolder n q).ctxs = s.ctxs := rfl
@[simp] theorem setHolder_budget (n : Nat) (q : Option Req) : (s.setHolder n q).budget = s.budget := rfl
@[simp] theorem setHolder_progs (n : Nat) (q : Option Req) : (s.setHolder n q).progs = s.progs := rfl
@[simp] theorem setHolder_cores (n : Nat) (q : Option Req) : (s.setHolder n q).cores = s.cores := rfl
@[simp] theorem setHolder_intake (n : Nat) (q : Option Req) : (s.setHolder n q).intake = s.intake := rfl
@[simp] theorem setHolder_readySeq (n : Nat) (q : Option Req) : (s.setHolder n q).readySeq = s.readySeq := rfl
@[simp] theorem setHolder_runs (n : Nat) (q : Option Req) : (s.setHolder n q).runs = s.runs := rfl
@[simp] theorem setHolder_taskOn (n : Nat) (q : Option Req) : (s.setHolder n q).taskOn = s.taskOn := rfl
@[simp] theorem setHolder_pubs (n : Nat) (q : Option Req) : (s.setHolder n q).pubs = s.pubs := rfl
@[simp] theorem setHolder_col (n : Nat) (q : Option Req) : (s.setHolder n q).col = s.col := rfl
@[simp] theorem setHolder_dac (n : Nat) (q : Option Req) : (s.setHolder n q).dac = s.dac := rfl
@[simp] theorem setHolder_clrPin (n : Nat) (q : Option Req) : (s.setHolder n q).clrPin = s.clrPin := rfl
@[simp] theorem setHolder_mck (n : Nat) (q : Option Req) : (s.setHolder n q).mck = s.mck := rfl
@[simp] theorem setHolder_ports (n : Nat) (q : Option Req) : (s.setHolder n q).ports = s.ports := rfl
@[simp] theorem setHolder_txns (n : Nat) (q : Option Req) : (s.setHolder n q).txns = s.txns := rfl
@[simp] theorem setHolder_commitSeq (n : Nat) (q : Option Req) : (s.setHolder n q).commitSeq = s.commitSeq := rfl
@[simp] theorem setHolder_wsPend (n : Nat) (q : Option Req) : (s.setHolder n q).wsPend = s.wsPend := rfl
@[simp] theorem setHolder_wsBusy (n : Nat) (q : Option Req) : (s.setHolder n q).wsBusy = s.wsBusy := rfl
@[simp] theorem setHolder_wsAcc (n : Nat) (q : Option Req) : (s.setHolder n q).wsAcc = s.wsAcc := rfl
@[simp] theorem setHolder_stalled (n : Nat) (q : Option Req) : (s.setHolder n q).stalled = s.stalled := rfl
@[simp] theorem setHolder_uarts (n : Nat) (q : Option Req) : (s.setHolder n q).uarts = s.uarts := rfl
@[simp] theorem setHolder_chks (n : Nat) (q : Option Req) : (s.setHolder n q).chks = s.chks := rfl
@[simp] theorem setHolder_sec (n : Nat) (q : Option Req) : (s.setHolder n q).sec = s.sec := rfl
@[simp] theorem setHolder_nvm (n : Nat) (q : Option Req) : (s.setHolder n q).nvm = s.nvm := rfl
@[simp] theorem setHolder_age (n : Nat) (q : Option Req) : (s.setHolder n q).age = s.age := rfl
@[simp] theorem setHolder_stgs (n : Nat) (q : Option Req) : (s.setHolder n q).stgs = s.stgs := rfl
@[simp] theorem setHolder_psuEn (n : Nat) (q : Option Req) : (s.setHolder n q).psuEn = s.psuEn := rfl
@[simp] theorem setHolder_sagActed (n : Nat) (q : Option Req) : (s.setHolder n q).sagActed = s.sagActed := rfl
@[simp] theorem setHolder_sagHeld (n : Nat) (q : Option Req) : (s.setHolder n q).sagHeld = s.sagHeld := rfl
@[simp] theorem setHolder_mute (n : Nat) (q : Option Req) : (s.setHolder n q).mute = s.mute := rfl
@[simp] theorem setHolder_sagRelease (n : Nat) (q : Option Req) : (s.setHolder n q).sagRelease = s.sagRelease := rfl
@[simp] theorem setHolder_sagCut (n : Nat) (q : Option Req) : (s.setHolder n q).sagCut = s.sagCut := rfl
@[simp] theorem setHolder_posted (n : Nat) (q : Option Req) : (s.setHolder n q).posted = s.posted := rfl
@[simp] theorem setHolder_slotResp (n : Nat) (q : Option Req) : (s.setHolder n q).slotResp = s.slotResp := rfl
@[simp] theorem setHolder_refAll (n : Nat) (q : Option Req) : (s.setHolder n q).refAll = s.refAll := rfl
@[simp] theorem setHolder_refEnd (n : Nat) (q : Option Req) : (s.setHolder n q).refEnd = s.refEnd := rfl
@[simp] theorem setHolder_strobes (n : Nat) (q : Option Req) : (s.setHolder n q).strobes = s.strobes := rfl
@[simp] theorem setHolder_evals (n : Nat) (q : Option Req) : (s.setHolder n q).evals = s.evals := rfl
@[simp] theorem setHolder_clrSeen (n : Nat) (q : Option Req) : (s.setHolder n q).clrSeen = s.clrSeen := rfl

@[simp] theorem setHolder_holder_same (n : Nat) (q : Option Req) : (s.setHolder n q).holder n = q := tget_tput_same ..
theorem setHolder_holder_other {n j : Nat} (h : j ≠ n) (q : Option Req) : (s.setHolder n q).holder j = s.holder j :=
  tget_tput_other _ _ _ h

end Sys2Proof.Machine
end

