-- ==== Sys2Proof/Laws/Memory.lean ====
section
/-! SUPPORT. The laws of device memory: reads after writes, and that every memory operation keeps the canonical form. -/

namespace Sys2Proof.Machine

variable (s : State)

/-- A byte after a store of one byte. -/
theorem setByte_byte (a c : Nat) (b : Byte) : (s.setByte a b).byte c = if c = a then b else s.byte c := by
  unfold State.byte State.setByte
  split
  · next h => subst h; exact tget_tput_same ..
  · next h => exact tget_tput_other _ _ _ h

@[simp] theorem setByte_byte_same (a : Nat) (b : Byte) : (s.setByte a b).byte a = b := by simp [setByte_byte]

theorem setByte_byte_other {a c : Nat} (h : c ≠ a) (b : Byte) : (s.setByte a b).byte c = s.byte c := by
  simp [setByte_byte, h]

/-- A store of a word leaves every byte outside its four alone. -/
theorem setWord_byte_other {a c : Nat} (h : c < a ∨ a + 4 ≤ c) (w : Word) : (s.setWord a w).byte c = s.byte c := by
  unfold State.setWord
  rw [setByte_byte_other _ (by omega), setByte_byte_other _ (by omega), setByte_byte_other _ (by omega),
    setByte_byte_other _ (by omega)]

/-- A stored word is what is read back. -/
@[simp] theorem setWord_word_same (a : Nat) (w : Word) : (s.setWord a w).word a = w := by
  have h1 : ¬ a + 1 = a := by omega
  have h2 : ¬ a + 2 = a := by omega
  have h3 : ¬ a + 3 = a := by omega
  have h4 : ¬ a = a + 1 := by omega
  have h5 : ¬ a = a + 2 := by omega
  have h6 : ¬ a = a + 3 := by omega
  simp only [State.word, State.setWord, setByte_byte, Nat.add_left_cancel_iff, Nat.reduceEqDiff, h1, h2, h3, h4, h5, h6,
    if_true, if_false]
  ext i hi
  simp only [BitVec.getElem_append, BitVec.getElem_extractLsb']
  split
  · rw [← BitVec.getLsbD_eq_getElem]; congr 1; omega
  · split
    · rw [← BitVec.getLsbD_eq_getElem]; congr 1; omega
    · split
      · rw [← BitVec.getLsbD_eq_getElem]; congr 1; omega
      · rw [← BitVec.getLsbD_eq_getElem]; congr 1; omega

/-- A store of a word leaves every word apart from it alone. -/
theorem setWord_word_other {a c : Nat} (h : c + 4 ≤ a ∨ a + 4 ≤ c) (w : Word) : (s.setWord a w).word c = s.word c := by
  unfold State.word
  rw [setWord_byte_other _ (by omega), setWord_byte_other _ (by omega), setWord_byte_other _ (by omega),
    setWord_byte_other _ (by omega)]

/-- A store of a double word leaves every byte outside its eight alone. -/
theorem setDword_byte_other {a c : Nat} (h : c < a ∨ a + 8 ≤ c) (w : Dword) :
    (s.setDword a w).byte c = s.byte c := by
  unfold State.setDword
  rw [setWord_byte_other _ (by omega), setWord_byte_other _ (by omega)]

/-- A store of bytes leaves every byte outside them alone. -/
theorem setBytes_byte_other (l : List Byte) : ∀ {s : State} {a c : Nat}, (c < a ∨ a + l.length ≤ c) →
    (s.setBytes a l).byte c = s.byte c := by
  induction l with
  | nil => intro s a c _; rfl
  | cons b l ih =>
    intro s a c h
    simp only [List.length_cons] at h
    unfold State.setBytes
    rw [ih (by omega), setByte_byte_other _ (by omega)]

/-- A cleared byte reads zero, and every other byte what it read. -/
theorem clearBytes_byte (a n c : Nat) :
    (s.clearBytes a n).byte c = if a ≤ c ∧ c < a + n then 0 else s.byte c := tget_tclear ..

/-! ### The canonical form -/

section
variable {s}

theorem setByte_wf (h : Memory.wf s.mem = true) (a : Nat) (b : Byte) : Memory.wf (s.setByte a b).mem = true :=
  twf_tput (fun _ => (0 : Byte)) h a b

theorem setWord_wf (h : Memory.wf s.mem = true) (a : Nat) (w : Word) : Memory.wf (s.setWord a w).mem = true :=
  setByte_wf (setByte_wf (setByte_wf (setByte_wf h _ _) _ _) _ _) _ _

theorem setDword_wf (h : Memory.wf s.mem = true) (a : Nat) (w : Dword) : Memory.wf (s.setDword a w).mem = true :=
  setWord_wf (setWord_wf h _ _) _ _

theorem clearBytes_wf (h : Memory.wf s.mem = true) (a n : Nat) : Memory.wf (s.clearBytes a n).mem = true :=
  twf_tclear (fun _ => (0 : Byte)) h a n

theorem foldl_setByte_wf {α : Type} (at_ : α → Nat) (val : α → Byte) (l : List α) : ∀ {s : State},
    Memory.wf s.mem = true → Memory.wf (l.foldl (fun t e => t.setByte (at_ e) (val e)) s).mem = true := by
  induction l with
  | nil => intro s h; exact h
  | cons e l ih => intro s h; exact ih (setByte_wf h _ _)

theorem copyBytes_wf (h : Memory.wf s.mem = true) (src dst n : Nat) :
    Memory.wf (s.copyBytes src dst n).mem = true := foldl_setByte_wf _ _ _ (clearBytes_wf h _ _)

end

theorem setBytes_wf (l : List Byte) : ∀ {s : State} (_ : Memory.wf s.mem = true) (a : Nat),
    Memory.wf (s.setBytes a l).mem = true := by
  induction l with
  | nil => intro s h a; exact h
  | cons b l ih => intro s h a; exact ih (setByte_wf h _ _) _

end Sys2Proof.Machine
end

