-- ==== Sys2Proof/Laws/Ops.lean ====
section
/-! SUPPORT. The laws of the shared operations: registers and their fields, and what counters, sticky flags and
interrupt causes can change. A lemma named `<operation>_only` gives the state after the operation with every field that
it cannot change written as the field before. -/

namespace Sys2Proof.Machine

variable (s : State)

/-! ### Register words -/

@[simp] theorem setReg_reg_same (a : Nat) (w : Word) : (s.setReg a w).reg a = w := tget_tput_same ..

theorem setReg_reg_other {a b : Nat} (h : b ≠ a) (w : Word) : (s.setReg a w).reg b = s.reg b :=
  tget_tput_ne _ _ _ _ h

theorem setReg_wf (h : twf (powerOnWord s.variant) s.csr = true) (a : Nat) (w : Word) :
    twf (powerOnWord s.variant) (s.setReg a w).csr = true := twf_tput _ h a w

/-! ### Fields of a word -/

theorem bit_fmask {hi lo i : Nat} (h : hi < 32) :
    (fmask hi lo).getLsbD i = (decide (lo ≤ i) && decide (i ≤ hi) && decide (lo ≤ hi)) ∨ hi < lo := by
  by_cases hl : lo ≤ hi
  · left
    unfold fmask
    rw [BitVec.getLsbD_ofNat, Nat.mul_comm, Nat.testBit_two_pow_mul, Nat.testBit_two_pow_sub_one]
    by_cases h1 : lo ≤ i <;> by_cases h2 : i ≤ hi <;> by_cases h3 : i < 32 <;>
      simp [h1, h2, h3, hl] <;> omega
  · right; omega

theorem getLsbD_fmask {hi lo : Nat} (h : hi < 32) (hl : lo ≤ hi) (i : Nat) :
    (fmask hi lo).getLsbD i = (decide (lo ≤ i) && decide (i ≤ hi)) := by
  rcases bit_fmask (i := i) (lo := lo) h with e | e
  · rw [e]; simp [hl]
  · omega

/-- A bit of a word with a field replaced. -/
theorem getLsbD_setFld {hi lo : Nat} (h : hi < 32) (hl : lo ≤ hi) (w : Word) (v i : Nat) :
    (setFld w hi lo v).getLsbD i = if lo ≤ i ∧ i ≤ hi then v.testBit (i - lo) else w.getLsbD i := by
  unfold setFld
  simp only [BitVec.getLsbD_or, BitVec.getLsbD_and, BitVec.getLsbD_not, getLsbD_fmask h hl, BitVec.getLsbD_ofNat]
  rw [Nat.mul_comm, Nat.testBit_two_pow_mul]
  by_cases h1 : lo ≤ i <;> by_cases h2 : i ≤ hi
  · have h3 : i < 32 := by omega
    simp [h1, h2, h3]
  · by_cases h3 : i < 32 <;> simp [h1, h2, h3]
    exact BitVec.getLsbD_of_ge _ _ (by omega)
  · by_cases h3 : i < 32 <;> simp [h1, h2, h3]
    omega
  · omega

/-- A field as the bits it holds. -/
theorem testBit_fld (w : Word) (hi lo i : Nat) :
    (fld w hi lo).testBit i = (decide (i < hi - lo + 1) && w.getLsbD (lo + i)) := by
  unfold fld
  rw [Nat.testBit_mod_two_pow]
  congr 1
  rw [← BitVec.getLsbD, BitVec.getLsbD_ushiftRight]

/-- A field that has been replaced holds what was put into it. -/
theorem fld_setFld_same {hi lo : Nat} (h : hi < 32) (hl : lo ≤ hi) (w : Word) (v : Nat) :
    fld (setFld w hi lo v) hi lo = v % 2 ^ (hi - lo + 1) := by
  apply Nat.eq_of_testBit_eq
  intro i
  rw [testBit_fld, getLsbD_setFld h hl, Nat.testBit_mod_two_pow]
  by_cases h1 : i < hi - lo + 1
  · rw [if_pos (by omega)]; simp
  · simp [h1]

/-- A field apart from one that has been replaced holds what it held. -/
theorem fld_setFld_other {hi lo hi' lo' : Nat} (h : hi < 32) (hl : lo ≤ hi) (hl' : lo' ≤ hi')
    (hd : hi < lo' ∨ hi' < lo) (w : Word) (v : Nat) : fld (setFld w hi lo v) hi' lo' = fld w hi' lo' := by
  apply Nat.eq_of_testBit_eq
  intro i
  rw [testBit_fld, testBit_fld, getLsbD_setFld h hl]
  by_cases h1 : i < hi' - lo' + 1
  · rw [if_neg (by omega)]
  · simp [h1]

/-- A bit apart from a field that has been replaced holds what it held. -/
theorem bit_setFld_other {hi lo n : Nat} (h : hi < 32) (hl : lo ≤ hi) (hd : n < lo ∨ hi < n) (w : Word) (v : Nat) :
    bit (setFld w hi lo v) n = bit w n := by
  unfold bit
  rw [getLsbD_setFld h hl, if_neg (by omega)]

/-- A single bit that has been replaced. -/
theorem bit_setFld_same {n : Nat} (h : n < 32) (w : Word) (b : Bool) : bit (setFld w n n (b2n b)) n = b := by
  unfold bit
  rw [getLsbD_setFld h (Nat.le_refl n), if_pos (by omega)]
  cases b <;> simp [b2n]

/-! ### Causes, flags and counters -/

theorem setRf_eq (a hi lo v : Nat) : s.setRf a hi lo v = s.setReg a (setFld (s.reg a) hi lo v) := rfl

theorem orReg_eq (a : Nat) (m : Word) : s.orReg a m = s.setReg a (s.reg a ||| m) := rfl

theorem count_eq (a : Nat) : s.count a = s.setReg a (sat32 ((s.reg a).toNat + 1)) := rfl

theorem peak_only (a hi lo v : Nat) : s.peak a hi lo v = { s with csr := (s.peak a hi lo v).csr } := by
  simp only [State.peak]
  split <;> rfl

theorem signal_only (p v : Nat) : s.signal p v = { s with ports := (s.signal p v).ports } := by
  unfold State.signal
  split <;> rfl

/-- An interrupt cause changes registers and ports only. -/
theorem cause_only (p v : Nat) :
    s.cause p v = { s with csr := (s.cause p v).csr, ports := (s.cause p v).ports } := by
  unfold State.cause
  split
  · rfl
  · simp only
    split
    · rw [signal_only]; rfl
    · rfl

theorem causeBoth_only (v : Nat) :
    s.causeBoth v = { s with csr := (s.causeBoth v).csr, ports := (s.causeBoth v).ports } := by
  unfold State.causeBoth
  rw [cause_only, cause_only]

theorem det_only (n : Nat) : s.det n = { s with csr := (s.det n).csr, ports := (s.det n).ports } := by
  unfold State.det
  rw [causeBoth_only]; rfl

theorem evtFlag_only (n : Nat) : s.evtFlag n = { s with csr := (s.evtFlag n).csr, ports := (s.evtFlag n).ports } := by
  unfold State.evtFlag
  rw [causeBoth_only]; rfl

theorem mckFlag_only (n : Nat) : s.mckFlag n = { s with csr := (s.mckFlag n).csr, ports := (s.mckFlag n).ports } := by
  unfold State.mckFlag
  rw [causeBoth_only]; rfl

/-- A cause whose bit is already set changes nothing. -/
theorem cause_set {p v : Nat} (h : s.rb (Reg.HPx_IRQ_STAT p) v = true) : s.cause p v = s := by
  simp [State.cause, h]

/-- The word with only bit n set has bit n. -/
theorem onebit_self {n : Nat} (h : n < 32) : (onebit n).getLsbD n = true := by
  rw [onebit, BitVec.getLsbD_ofNat, Nat.testBit_two_pow_self, decide_eq_true h, Bool.and_self]

/-- A cause that occurs stands in HPx_IRQ_STAT. -/
theorem cause_rb (p v : Nat) (hv : v < 32) : (s.cause p v).rb (Reg.HPx_IRQ_STAT p) v = true := by
  unfold State.cause
  split
  · assumption
  · simp only
    have hb : (s.orReg (Reg.HPx_IRQ_STAT p) (onebit v)).rb (Reg.HPx_IRQ_STAT p) v = true := by
      rw [orReg_eq]
      simp only [State.rb, bit, setReg_reg_same, BitVec.getLsbD_or, onebit_self hv, Bool.or_true]
    split
    · rw [signal_only]; exact hb
    · exact hb

/-- A cause changes no register but HPx_IRQ_STAT of its port. -/
theorem cause_reg_other (p v a : Nat) (h : a ≠ Reg.HPx_IRQ_STAT p) : (s.cause p v).reg a = s.reg a := by
  unfold State.cause
  split
  · rfl
  · simp only
    split
    · rw [signal_only]; exact setReg_reg_other s h _
    · exact setReg_reg_other s h _

theorem causeBoth_reg_other (v a : Nat) (h : a < 0x07010000 ∨ 0x07030000 ≤ a) : (s.causeBoth v).reg a = s.reg a := by
  unfold State.causeBoth
  rw [cause_reg_other, cause_reg_other] <;> simp only [Reg.HPx_IRQ_STAT] <;> omega

/-- A saturating count of one (R53). -/
theorem count_toNat (a : Nat) : ((s.count a).reg a).toNat = min ((s.reg a).toNat + 1) 0xFFFFFFFF := by
  rw [count_eq, setReg_reg_same, sat32]
  simp only [BitVec.toNat_ofNat]
  omega

theorem count_reg_other {a b : Nat} (h : b ≠ a) : (s.count a).reg b = s.reg b := setReg_reg_other s h _

theorem orReg_reg_other {a b : Nat} (h : b ≠ a) (m : Word) : (s.orReg a m).reg b = s.reg b := setReg_reg_other s h _

@[simp] theorem orReg_reg_same (a : Nat) (m : Word) : (s.orReg a m).reg a = s.reg a ||| m := setReg_reg_same ..

/-- A bit that is set in a register reads 1. -/
theorem orReg_rb (a n : Nat) (h : n < 32) : (s.orReg a (onebit n)).rb a n = true := by
  simp only [State.rb, bit, orReg_reg_same, BitVec.getLsbD_or, onebit_self h, Bool.or_true]

/-- A loop that keeps a property in each of its steps keeps it. -/
theorem iter_keeps {σ : Type} (P : σ → Prop) (f : Nat → σ → σ) (h : ∀ i x, P x → P (f i x)) :
    ∀ (n a : Nat) (x : σ), P x → P (iter f a n x)
  | 0, _, _, hx => hx
  | n + 1, a, x, hx => iter_keeps P f h n (a + 1) (f a x) (h a x hx)

/-- A fold that keeps a property in each of its steps keeps it. -/
theorem foldl_keeps {σ α : Type} (P : σ → Prop) (f : σ → α → σ) (h : ∀ x e, P x → P (f x e)) :
    ∀ (l : List α) (x : σ), P x → P (l.foldl f x)
  | [], _, hx => hx
  | e :: l, x, hx => foldl_keeps P f h l (f x e) (h x e hx)

/-- Vectors held pending are sent: ports only change. -/
theorem flushVectors_only (p : Nat) : s.flushVectors p = { s with ports := (s.flushVectors p).ports } := by
  unfold State.flushVectors
  refine iter_keeps (fun t => t = { s with ports := t.ports }) _ ?_ 26 0 s rfl
  intro v t ht
  simp only
  split
  · rw [ht]; rfl
  · exact ht

/-! ### Outcomes -/

theorem done_eq (t : State) : done s t = .next { t with pending := s.pending } := rfl

theorem done_pending {t : State} (h : t.pending = s.pending) : done s t = .next t := by
  unfold done
  rw [← h]

/-- A command whose operands are well formed runs, and leaves the queue as it finds it. -/
theorem doneIf_next {ok : Bool} (h : ok = true) (m : String) (t : State) :
    ∃ u, doneIf ok m s t = .next u ∧ u.pending = s.pending := by
  subst h; exact ⟨_, rfl, rfl⟩

theorem doneIf_true (m : String) (t : State) : doneIf true m s t = .next { t with pending := s.pending } := rfl

theorem doneIf_false (m : String) (t : State) : doneIf false m s t = .fault (.illFormed m) := rfl

end Sys2Proof.Machine
end

