-- ==== Sys2Proof/Laws/Access.lean ====
section
/-! SUPPORT. The laws of register writes: what a whole aligned write of one register word does when it is accepted, and
when it is refused. -/

set_option Elab.async false

namespace Sys2Proof.Machine

variable {s : State} {q : Req} {a : Nat} {w : Word} {h : RegHit}

/-! ### Splitting: a whole aligned word is one access -/

/-- The lanes of a whole word. -/
theorem lanesOf_four (a v : Nat) :
    lanesOf a 4 v = [(a, BitVec.ofNat 8 v), (a + 1, BitVec.ofNat 8 (v / 2 ^ 8)), (a + 2, BitVec.ofNat 8 (v / 2 ^ 16)),
      (a + 3, BitVec.ofNat 8 (v / 2 ^ 24))] := by
  simp [lanesOf, List.range_succ]

/-- The bytes of a word are its number. -/
theorem leNat_lanesOf (a : Nat) (w : Word) :
    BitVec.ofNat 32 (leNat ((lanesOf a 4 (w.setWidth 64).toNat).map (·.2))) = w := by
  have hw : (w.setWidth 64).toNat = w.toNat := by
    have := w.isLt
    simp only [BitVec.toNat_setWidth]; omega
  rw [hw]
  apply BitVec.eq_of_toNat_eq
  have := w.isLt
  simp only [lanesOf_four, List.map_cons, List.map_nil, leNat, BitVec.toNat_ofNat]
  omega

theorem groupBy_word (k : Nat) {l : Lanes} {a : Nat} (hd : ∀ i, i < 4 → (a + i) / k = a / k) (b0 b1 b2 b3 : Byte)
    (hl : l = [(a, b0), (a + 1, b1), (a + 2, b2), (a + 3, b3)]) : groupBy k l = [l] := by
  subst hl
  have h1 := hd 1 (by omega)
  have h2 := hd 2 (by omega)
  have h3 := hd 3 (by omega)
  simp [groupBy, h1, h2, h3]

/-- A whole aligned register word is reached by one access of four lanes. -/
theorem accessesOf_word (hc : isCsr a = true) (ha : a % 4 = 0) (v : Nat) :
    accessesOf true (lanesOf a 4 v) = [lanesOf a 4 v] := by
  have e8 : groupBy 8 (lanesOf a 4 v) = [lanesOf a 4 v] :=
    groupBy_word 8 (by intro i hi; omega) _ _ _ _ (lanesOf_four a v)
  have e4 : groupBy 4 (lanesOf a 4 v) = [lanesOf a 4 v] :=
    groupBy_word 4 (by intro i hi; omega) _ _ _ _ (lanesOf_four a v)
  have hh : ((lanesOf a 4 v).headD (0, 0)).1 = a := by rw [lanesOf_four]; rfl
  have hn : (lanesOf a 4 v).length = 4 := by rw [lanesOf_four]; rfl
  simp only [accessesOf, e8, List.flatMap_cons, List.flatMap_nil, unitAccesses, hh, hn, hc, e4, Bool.and_true, Bool.true_or,
    if_true, Nat.reduceEqDiff, decide_false, Bool.false_and, Bool.false_eq_true, if_false, List.append_nil]

/-! ### Accesses that arrive at once and alone -/

/-- Whether an access arrives depends on its requester and address only. -/
theorem arrives_iff (n : Nat) (v : Option Dword) :
    s.arrives q a = true ↔ s.reaches ⟨q, a, n, v⟩ = true ∧ s.posted = [] := by
  have h : s.reaches ⟨q, a, n, v⟩ = s.reaches ⟨q, a, 4, none⟩ := rfl
  rw [h]
  simp [State.arrives]

/-- With nothing standing at the arbiter an access is made as it comes. -/
theorem arbitrate_alone (hp : s.posted = []) (m : Access1) : s.arbitrate m = s.access m := by
  simp [State.arbitrate, hp]

/-- A sequence of one access, with nothing standing at the arbiter. -/
theorem serve_one (hp : s.posted = []) (write regs bar2 : Bool) (g : Lanes) :
    s.serve q write regs bar2 [g] =
      let x := s.access { req := q, write := write, regs := regs, bar2 := bar2, lanes := g }
      { state := x.state, bytes := (g.zip x.bytes).map (fun e => (e.1.1, e.2)), cause := x.cause } := by
  simp [State.serve, serveAccess, arbitrate_alone hp]

/-- A whole aligned write that arrives is one access of four lanes. -/
theorem put32_access (hc : isCsr a = true) (ha : a % 4 = 0) (hr : s.arrives q a = true) :
    s.put32 q a w = { (s.regWriteWord q a w).2.refuse q true false a (s.regWriteWord q a w).1 with
      resp := { cause := (s.regWriteWord q a w).1 } } := by
  obtain ⟨h1, hp⟩ := (arrives_iff 4 (some (w.setWidth 64))).1 hr
  have hv := leNat_lanesOf a w
  have hk : (regMade ⟨q, a, 4, some (w.setWidth 64)⟩).askew = false := by simp [regMade, ha]
  unfold State.put32 State.writeAlone State.single
  simp only [h1, hk, Bool.true_eq_false, Bool.false_eq_true, if_false, regParts, Option.getD_some, accessesOf_word hc ha,
    Option.isSome_some, hc, Bool.not_true, serve_one hp]
  revert hv
  generalize (w.setWidth 64).toNat = v
  intro hv
  have hh : ((lanesOf a 4 v).headD (0, 0)).1 = a := by rw [lanesOf_four]; rfl
  have hn : (lanesOf a 4 v).length = 4 := by rw [lanesOf_four]; rfl
  have hx : s.writeAccess q true (lanesOf a 4 v) = s.regWriteWord q a w := by
    simp only [State.writeAccess, hh, hn, hc, Bool.and_true, if_true, Nat.reduceEqDiff, if_false, hv]
  simp only [State.access, Access1.addr, hx, hh, Bool.false_eq_true, if_false, if_true, List.zip_nil_right, List.map_nil, leNat]
  rfl

theorem takes_iff : s.takes q a w = true ↔ s.arrives q a = true ∧ isCsr a = true ∧ a % 4 = 0 ∧
    ∃ h, findReg a = some h ∧ s.directCause q h a w = 0 := by
  unfold State.takes
  cases hf : findReg a <;> simp [and_assoc]

/-- An accepted write takes its effect, and the device answers without a cause. -/
theorem put32_taken (ht : s.takes q a w = true) (hf : findReg a = some h) :
    s.put32 q a w = { s.applyWord q h a w with resp := {} } := by
  obtain ⟨hw, hc, ha, h', hf', hd⟩ := takes_iff.1 ht
  rw [hf] at hf'
  obtain rfl := Option.some.inj hf'
  simp [put32_access hc ha hw, State.regWriteWord, hf, hd, State.refuse]

/-- A refused write leaves the state as the record of the refusal leaves it. -/
theorem put32_refused (hw : s.arrives q a = true) (hc : isCsr a = true) (ha : a % 4 = 0) (hr : s.refusal q a w ≠ 0)
    (hn : ∀ h, findReg a = some h → h.name ≠ .TXN_SDATA) :
    s.put32 q a w = { s.refuse q true false a (s.refusal q a w) with resp := { cause := s.refusal q a w } } := by
  unfold State.refusal at hr ⊢
  cases hf : findReg a with
  | none => simp [put32_access hc ha hw, State.regWriteWord, hf]
  | some h =>
    rw [hf] at hr
    simp only at hr
    simp [put32_access hc ha hw, State.regWriteWord, hf, hr, hn h hf]

/-- Before step 4 of R617 no access is answered. -/
theorem single_asleep (hw : s.awake = false) (x : RegAccess) : s.single x = s := by
  have h : s.reaches x = false := by simp [State.reaches, hw]
  unfold State.single
  rw [if_pos h]
  unfold State.keepBack
  split <;> simp [hw]

theorem put32_asleep (hw : s.awake = false) : s.put32 q a w = s := single_asleep hw _

/-! ### Whole reads -/

theorem toNat_lanes (a v : Nat) :
    leNat ((lanesOf a 4 v).map (·.2)) = v % 2 ^ 32 := by
  simp only [lanesOf_four, List.map_cons, List.map_nil, leNat, BitVec.toNat_ofNat]
  omega

/-- What a whole aligned read of one register word that arrives comes to: its value, what the read does, and the record of a
read that a rule calls refused. -/
theorem regRead_word (hr : s.arrives q a = true) (hc : isCsr a = true) (ha : a % 4 = 0) :
    s.regRead q a 4 = { (s.regReadWord q a false).2.2.refuse q false false a (s.regReadWord q a false).2.1 with
      resp := { value := (s.regReadWord q a false).1.setWidth 64, cause := (s.regReadWord q a false).2.1 } } := by
  obtain ⟨h1, hp⟩ := (arrives_iff 4 none).1 hr
  have hk : (regMade ⟨q, a, 4, none⟩).askew = false := by simp [regMade, ha]
  have e4 : a / 4 * 4 = a := by omega
  have hh : ((lanesOf a 4 0).headD (0, 0)).1 = a := by rw [lanesOf_four]; rfl
  have hn : (lanesOf a 4 0).length = 4 := by rw [lanesOf_four]; rfl
  have m1 : (a + 1) % 4 = 1 := by omega
  have m2 : (a + 2) % 4 = 2 := by omega
  have m3 : (a + 3) % 4 = 3 := by omega
  have hx : s.readAccess q true (lanesOf a 4 0) =
      ((lanesOf a 4 0).map fun e => ((s.regReadWord q a false).1 >>> (8 * (e.1 % 4))).setWidth 8,
        (s.regReadWord q a false).2.1, (s.regReadWord q a false).2.2) := by
    simp only [State.readAccess, hh, hn, hc, Bool.and_true, if_true, Nat.reduceEqDiff, if_false, e4, Nat.lt_irrefl,
      decide_false]
  have hb : ∀ v : Word, leNat [(v >>> 0).setWidth 8, (v >>> 8).setWidth 8, (v >>> 16).setWidth 8,
      (v >>> 24).setWidth 8] = v.toNat := by
    intro v
    have := v.isLt
    simp only [leNat, BitVec.toNat_setWidth, BitVec.toNat_ushiftRight, Nat.shiftRight_eq_div_pow]
    omega
  have hz : ((lanesOf a 4 0).zip ((lanesOf a 4 0).map fun e =>
      ((s.regReadWord q a false).1 >>> (8 * (e.1 % 4))).setWidth 8)).map (fun e => ((e.1.1, e.2) : Nat × Byte)) =
      [(a, ((s.regReadWord q a false).1 >>> 0).setWidth 8), (a + 1, ((s.regReadWord q a false).1 >>> 8).setWidth 8),
       (a + 2, ((s.regReadWord q a false).1 >>> 16).setWidth 8), (a + 3, ((s.regReadWord q a false).1 >>> 24).setWidth 8)] := by
    rw [lanesOf_four]
    simp only [List.map_cons, List.map_nil, List.zip_cons_cons, List.zip_nil_left, ha, m1, m2, m3]
  have hv : BitVec.ofNat 64 (s.regReadWord q a false).1.toNat = (s.regReadWord q a false).1.setWidth 64 := by
    apply BitVec.eq_of_toNat_eq
    simp
  have h0 : (0 : Dword).toNat = 0 := rfl
  unfold State.regRead State.single
  simp only [h1, hk, Bool.true_eq_false, Bool.false_eq_true, if_false, regParts, Option.getD_none, h0, accessesOf_word hc ha, Option.isSome_none, hc, Bool.not_true, serve_one hp, State.access, Access1.addr, hh,
    hx, hz, List.map_cons, List.map_nil, hb, hv]

/-! ### A slot with one access -/

/-- One access alone in its slot. -/
theorem registerWrites_alone (x : RegAccess) : s.registerWrites [x] false = s.single x := rfl

/-! ### The record of a refusal (R497) -/

/-- A recorded fault changes registers and ports only. -/
theorem recordFault_changes (p : Nat) (write bar2 : Bool) (a c : Nat) :
    ∃ x y, s.recordFault p write bar2 a c = { s with csr := x, ports := y } := by
  unfold State.recordFault
  dsimp only
  generalize s.rb (Reg.HPx_AFLT p) 31 = v
  obtain ⟨t, ht, x, hx⟩ : ∃ t, t = (if v = true then s.orReg (Reg.HPx_AFLT p) (onebit 30) else
      (s.setReg (Reg.HPx_AFLT p) (setFld (setFld (setFld (setFld (s.reg (Reg.HPx_AFLT p) &&& onebit 30) 31 31 1) 29 29
        (b2n write)) 28 28 (b2n bar2)) 27 24 c)).setReg (Reg.HPx_AFLT_ADDR p) (BitVec.ofNat 32 a)) ∧
      ∃ x, t = { s with csr := x } := by
    refine ⟨_, rfl, ?_⟩
    cases v <;> exact ⟨_, rfl⟩
  rw [← ht, hx, cause_only]
  exact ⟨_, _, rfl⟩

/-- A refusal changes registers and ports only, and only for a host. -/
theorem refuse_changes (q : Req) (write bar2 : Bool) (a c : Nat) :
    ∃ x y, s.refuse q write bar2 a c = { s with csr := x, ports := y } := by
  unfold State.refuse
  split
  · exact recordFault_changes ..
  · exact ⟨s.csr, s.ports, rfl⟩

end Sys2Proof.Machine
end

