-- ==== Sys2Proof/Laws/Dac.lean ====
section
/-! SUPPORT. The laws of the converters: the source of a channel does not depend on the channels' own state, and what the
deglitcher's answer to a change of source comes to, channel by channel. -/

namespace Sys2Proof.Machine

variable (s : State)

/-- The source, and the value it passes, of a state with other channels. -/
theorem dacSrc_dac (x : Tbl DacCh) (c : Nat) : ({ s with dac := x } : State).dacSrc c = s.dacSrc c := rfl

/-- One channel's answer changes that channel only. -/
theorem dacSwitch_only (c : Nat) (b : Bool) : s.dacSwitch c b = { s with dac := (s.dacSwitch c b).dac } := rfl

theorem dacDirect_only (c : Nat) : s.dacDirect c = { s with dac := (s.dacDirect c).dac } := rfl

theorem dacSwitch_other (c n : Nat) (b : Bool) (h : n ≠ c) : (s.dacSwitch c b).dacCh n = s.dacCh n :=
  setDacCh_dacCh_other s h _

theorem dacDirect_other (c n : Nat) (h : n ≠ c) : (s.dacDirect c).dacCh n = s.dacCh n :=
  setDacCh_dacCh_other s h _

theorem dacSwitch_same (c : Nat) (b : Bool) :
    ((s.dacSwitch c b).dacCh c).hold = true ∧ ((s.dacSwitch c b).dacCh c).pin = s.dacPins c := by
  unfold State.dacSwitch
  simp only [setDacCh_dacCh_same, and_self]

theorem dacDirect_same (c : Nat) :
    ((s.dacDirect c).dacCh c).hold = false ∧ ((s.dacDirect c).dacCh c).settle = 0 := by
  unfold State.dacDirect
  simp only [setDacCh_dacCh_same, and_self]

/-- One step of the loop over the channels. -/
def dacAnswer (old : List Nat) (c : Nat) (t : State) : State :=
  if old.getD c 0 = t.dacSrc c then t
  else if old.getD c 0 = 0 ∨ t.dacSrc c = 0 ∨ t.dacSrc c = 6 then t.dacDirect c
  else t.dacSwitch c false

theorem dacSourceChanged_iter (old : List Nat) : s.dacSourceChanged old = iter (dacAnswer old) 0 s.dacChannels s := rfl

theorem dacAnswer_only (old : List Nat) (c : Nat) : dacAnswer old c s = { s with dac := (dacAnswer old c s).dac } := by
  unfold dacAnswer
  split
  · rfl
  · split <;> rfl

theorem dacAnswer_other (old : List Nat) (c n : Nat) (h : n ≠ c) : (dacAnswer old c s).dacCh n = s.dacCh n := by
  unfold dacAnswer
  split
  · rfl
  · split
    · exact dacDirect_other s c n h
    · exact dacSwitch_other s c n false h

/-- A run of answers changes converters only. -/
theorem dacAnswers_iter_only (old : List Nat) :
    ∀ (n a : Nat) (t : State), iter (dacAnswer old) a n t = { t with dac := (iter (dacAnswer old) a n t).dac }
  | 0, _, _ => rfl
  | n + 1, a, t => by
    show iter (dacAnswer old) (a + 1) n (dacAnswer old a t) = _
    have h := dacAnswers_iter_only old n (a + 1) (dacAnswer old a t)
    have k := dacAnswer_only t old a
    calc iter (dacAnswer old) (a + 1) n (dacAnswer old a t)
        = { dacAnswer old a t with dac := (iter (dacAnswer old) (a + 1) n (dacAnswer old a t)).dac } := h
      _ = { t with dac := (iter (dacAnswer old) (a + 1) n (dacAnswer old a t)).dac } := by
          generalize (iter (dacAnswer old) (a + 1) n (dacAnswer old a t)).dac = d
          rw [k]

/-- The answer to a change of source changes converters only. -/
theorem dacSourceChanged_only (old : List Nat) :
    s.dacSourceChanged old = { s with dac := (s.dacSourceChanged old).dac } :=
  dacAnswers_iter_only old s.dacChannels 0 s

theorem dacSourceChanged_src (old : List Nat) (c : Nat) : (s.dacSourceChanged old).dacSrc c = s.dacSrc c := by
  rw [dacSourceChanged_only]; rfl

/-- A channel that the loop has not reached, or has passed, is as its own answer left it. -/
theorem iter_dacCh (old : List Nat) (c : Nat) :
    ∀ (n a : Nat) (t : State), (iter (dacAnswer old) a n t).dacCh c =
      if a ≤ c ∧ c < a + n then (dacAnswer old c t).dacCh c else t.dacCh c
  | 0, a, t => by rw [if_neg (by omega)]; rfl
  | n + 1, a, t => by
    show (iter (dacAnswer old) (a + 1) n (dacAnswer old a t)).dacCh c = _
    rw [iter_dacCh old c n (a + 1)]
    by_cases hc : c = a
    · subst hc
      rw [if_neg (by omega), if_pos (by omega)]
    · have h1 := dacAnswer_other t old a c hc
      have hs : (dacAnswer old a t).dacSrc c = t.dacSrc c := by rw [dacAnswer_only]; rfl
      have h2 : (dacAnswer old c (dacAnswer old a t)).dacCh c = (dacAnswer old c t).dacCh c := by
        have e := dacAnswer_only t old a
        unfold State.dacCh at h1
        generalize (dacAnswer old a t).dac = d at *
        rw [e]
        have hp : ({ t with dac := d } : State).dacCh c = t.dacCh c := h1
        have hpin : ({ t with dac := d } : State).dacPins c = t.dacPins c := by
          unfold State.dacPins; rw [hp]
        have hsel : ({ t with dac := d } : State).dacSelected c = t.dacSelected c := by
          unfold State.dacSelected; rw [hp]; rfl
        have htr : ∀ x, ({ t with dac := d } : State).dacTrim c x = t.dacTrim c x := fun _ => rfl
        unfold dacAnswer
        rw [dacSrc_dac]
        split
        · exact hp
        · split
          · unfold State.dacDirect
            simp only [setDacCh_dacCh_same, hp, hsel, htr, dacSrc_dac]
          · unfold State.dacSwitch
            simp only [setDacCh_dacCh_same, hp, hpin, hsel, htr, dacSrc_dac]
            congr
      rw [h1, h2]
      by_cases hr : a + 1 ≤ c ∧ c < a + 1 + n
      · rw [if_pos hr, if_pos (by omega)]
      · rw [if_neg hr, if_neg (by omega)]

/-- The deglitcher's answer (R433 to R435), from a state with the sources `s` had and the channels of `s`. -/
theorem dacSourceChanged_answers {s t : State} (hn : t.variant = s.variant) (h : ∀ c, t.dacCh c = s.dacCh c) (hp : ∀ c, t.dacPins c = s.dacPins c) :
    s.dacAnswers (t.dacSourceChanged s.dacSources) := by
  intro c hx
  have hk : t.dacChannels = s.dacChannels := by unfold State.dacChannels; rw [hn]
  have hc : c < 8 := by
    unfold State.dacChannels at hx
    split at hx <;> omega
  have ho : s.dacSources.getD c 0 = s.dacSrc c := by
    unfold State.dacSources
    rw [List.getD_eq_getElem?_getD, List.getElem?_map, List.getElem?_range hc]
    rfl
  have hv : (t.dacSourceChanged s.dacSources).dacCh c = (dacAnswer s.dacSources c t).dacCh c := by
    rw [dacSourceChanged_iter, iter_dacCh, hk, if_pos (by omega)]
  rw [dacSourceChanged_src, hv]
  unfold dacAnswer
  rw [ho]
  refine ⟨?_, ?_, ?_⟩
  · intro e; rw [if_pos e.symm, h]
  · intro e e1 e2 e3
    rw [if_neg (fun x => e x.symm), if_neg (by omega), ← hp]
    exact dacSwitch_same t c false
  · intro e e1
    rw [if_neg (fun x => e x.symm), if_pos e1]
    exact dacDirect_same t c

end Sys2Proof.Machine
end

