-- ==== Sys2Proof/Laws/Writes.lean ====
section
/-! SUPPORT. For each register that a command of its own writes: where the register map puts it, and what an accepted
whole write of it does. -/

set_option Elab.async false

namespace Sys2Proof.Machine

set_option maxRecDepth 20000

variable {s : State} {q : Req} {w : Word}

theorem find_HPx_RING_DB : ∀ (p : Fin 2) (r : Fin 4), (findReg (Reg.HPx_RING_DB p.val r.val)).map (fun h => (h.name, h.i, h.j, h.upper)) =
    some (.HPx_RING_DB, p.val, r.val, false) := by decide

/-- An accepted write of HPx_RING_DB. -/
theorem put32_HPx_RING_DB (p : Fin 2) (r : Fin 4) (ht : s.takes q (Reg.HPx_RING_DB p.val r.val) w = true) :
    s.put32 q (Reg.HPx_RING_DB p.val r.val) w = { s.ringDoorbell p.val r.val w with resp := {} } := by
  obtain ⟨_, _, _, h, hf, _⟩ := takes_iff.1 ht
  have hx := find_HPx_RING_DB p r
  rw [hf] at hx
  simp only [Option.map_some, Option.some.injEq, Prod.mk.injEq] at hx
  obtain ⟨hn, hi, hj, _⟩ := hx
  rw [put32_taken ht hf]
  have hb : s.applyWord q h (Reg.HPx_RING_DB p.val r.val) w = s.ringDoorbell p.val r.val w := by
    have hd : (Reg.HPx_RING_DB p.val r.val) / 0x10000 = 0x701 ∨ (Reg.HPx_RING_DB p.val r.val) / 0x10000 = 0x702 := by
      simp only [Reg.HPx_RING_DB]; omega
    rcases hd with hd | hd <;> simp [State.applyWord, hd, State.applyHp, hn, hi, hj]
  rw [hb]

theorem find_HPx_CPL_DB : ∀ (p : Fin 2) (r : Fin 4), (findReg (Reg.HPx_CPL_DB p.val r.val)).map (fun h => (h.name, h.i, h.j, h.upper)) =
    some (.HPx_CPL_DB, p.val, r.val, false) := by decide

theorem find_HPx_RING_CFG : ∀ (p : Fin 2) (r : Fin 4), (findReg (Reg.HPx_RING_CFG p.val r.val)).map (fun h => (h.name, h.i, h.j, h.upper)) =
    some (.HPx_RING_CFG, p.val, r.val, false) := by decide

/-- An accepted write of HPx_RING_CFG. -/
theorem put32_HPx_RING_CFG (p : Fin 2) (r : Fin 4) (ht : s.takes q (Reg.HPx_RING_CFG p.val r.val) w = true) :
    s.put32 q (Reg.HPx_RING_CFG p.val r.val) w = { s.ringCfgWrite p.val r.val w with resp := {} } := by
  obtain ⟨_, _, _, h, hf, _⟩ := takes_iff.1 ht
  have hx := find_HPx_RING_CFG p r
  rw [hf] at hx
  simp only [Option.map_some, Option.some.injEq, Prod.mk.injEq] at hx
  obtain ⟨hn, hi, hj, _⟩ := hx
  rw [put32_taken ht hf]
  have hb : s.applyWord q h (Reg.HPx_RING_CFG p.val r.val) w = s.ringCfgWrite p.val r.val w := by
    have hd : (Reg.HPx_RING_CFG p.val r.val) / 0x10000 = 0x701 ∨ (Reg.HPx_RING_CFG p.val r.val) / 0x10000 = 0x702 := by
      simp only [Reg.HPx_RING_CFG]; omega
    rcases hd with hd | hd <;> simp [State.applyWord, hd, State.applyHp, hn, hi, hj]
  rw [hb]

theorem find_HPx_IRQ_EN : ∀ (p : Fin 2), (findReg (Reg.HPx_IRQ_EN p.val)).map (fun h => (h.name, h.i, h.j, h.upper)) =
    some (.HPx_IRQ_EN, p.val, 0, false) := by decide

/-- An accepted write of HPx_IRQ_EN. -/
theorem put32_HPx_IRQ_EN (p : Fin 2) (ht : s.takes q (Reg.HPx_IRQ_EN p.val) w = true) :
    s.put32 q (Reg.HPx_IRQ_EN p.val) w = { s.irqEnable p.val w with resp := {} } := by
  obtain ⟨_, _, _, h, hf, _⟩ := takes_iff.1 ht
  have hx := find_HPx_IRQ_EN p
  rw [hf] at hx
  simp only [Option.map_some, Option.some.injEq, Prod.mk.injEq] at hx
  obtain ⟨hn, hi, _, _⟩ := hx
  rw [put32_taken ht hf]
  have hb : s.applyWord q h (Reg.HPx_IRQ_EN p.val) w = s.irqEnable p.val w := by
    have hd : (Reg.HPx_IRQ_EN p.val) / 0x10000 = 0x701 ∨ (Reg.HPx_IRQ_EN p.val) / 0x10000 = 0x702 := by
      simp only [Reg.HPx_IRQ_EN]; omega
    rcases hd with hd | hd <;> simp [State.applyWord, hd, State.applyHp, hn, hi]
  rw [hb]

theorem find_HPx_SEDB : ∀ (p : Fin 2), (findReg (Reg.HPx_SEDB p.val)).map (fun h => (h.name, h.i, h.j, h.upper)) =
    some (.HPx_SEDB, p.val, 0, false) := by decide

/-- An accepted write of HPx_SEDB. -/
theorem put32_HPx_SEDB (p : Fin 2) (ht : s.takes q (Reg.HPx_SEDB p.val) w = true) :
    s.put32 q (Reg.HPx_SEDB p.val) w = { s.sedbWrite q p.val w with resp := {} } := by
  obtain ⟨_, _, _, h, hf, _⟩ := takes_iff.1 ht
  have hx := find_HPx_SEDB p
  rw [hf] at hx
  simp only [Option.map_some, Option.some.injEq, Prod.mk.injEq] at hx
  obtain ⟨hn, hi, _, _⟩ := hx
  rw [put32_taken ht hf]
  have hb : s.applyWord q h (Reg.HPx_SEDB p.val) w = s.sedbWrite q p.val w := by
    have hd : (Reg.HPx_SEDB p.val) / 0x10000 = 0x701 ∨ (Reg.HPx_SEDB p.val) / 0x10000 = 0x702 := by
      simp only [Reg.HPx_SEDB]; omega
    rcases hd with hd | hd <;> simp [State.applyWord, hd, State.applyHp, hn, hi]
  rw [hb]

theorem find_SEM_REL : ∀ (n : Fin 64), (findReg (Reg.SEM_REL n.val)).map (fun h => (h.name, h.i, h.j, h.upper)) =
    some (.SEM_REL, n.val, 0, false) := by decide

/-- An accepted write of SEM_REL. -/
theorem put32_SEM_REL (n : Fin 64) (ht : s.takes q (Reg.SEM_REL n.val) w = true) :
    s.put32 q (Reg.SEM_REL n.val) w = { (if bit w 0 then s.semFree n.val else s) with resp := {} } := by
  obtain ⟨_, _, _, h, hf, _⟩ := takes_iff.1 ht
  have hx := find_SEM_REL n
  rw [hf] at hx
  simp only [Option.map_some, Option.some.injEq, Prod.mk.injEq] at hx
  obtain ⟨hn, hi, _, _⟩ := hx
  rw [put32_taken ht hf]
  have hb : s.applyWord q h (Reg.SEM_REL n.val) w = if bit w 0 then s.semFree n.val else s := by
    have hd : (Reg.SEM_REL n.val) / 0x10000 = 0x703 := by simp only [Reg.SEM_REL]; omega
    simp [State.applyWord, hd, State.applyShared, hn, hi]
  rw [hb]

theorem find_TXN_CTRL : ∀ (i : Fin 4), (findReg (Reg.TXN_CTRL i.val)).map (fun h => (h.name, h.i, h.j, h.upper)) =
    some (.TXN_CTRL, i.val, 0, false) := by decide

/-- An accepted write of TXN_CTRL. -/
theorem put32_TXN_CTRL (i : Fin 4) (ht : s.takes q (Reg.TXN_CTRL i.val) w = true) :
    s.put32 q (Reg.TXN_CTRL i.val) w = { s.txnCtrl i.val w with resp := {} } := by
  obtain ⟨_, _, _, h, hf, _⟩ := takes_iff.1 ht
  have hx := find_TXN_CTRL i
  rw [hf] at hx
  simp only [Option.map_some, Option.some.injEq, Prod.mk.injEq] at hx
  obtain ⟨hn, hi, _, _⟩ := hx
  rw [put32_taken ht hf]
  have hb : s.applyWord q h (Reg.TXN_CTRL i.val) w = s.txnCtrl i.val w := by
    have hd : (Reg.TXN_CTRL i.val) / 0x10000 = 0x704 := by simp only [Reg.TXN_CTRL]; omega
    simp [State.applyWord, hd, State.applyShared, hn, hi]
  rw [hb]

theorem find_EVT_HMAP_CTRL : ∀ (p : Fin 2), (findReg (Reg.EVT_HMAP_CTRL p.val)).map (fun h => (h.name, h.i, h.j, h.upper)) =
    some (.EVT_HMAP_CTRL, p.val, 0, false) := by decide

/-- An accepted write of EVT_HMAP_CTRL. -/
theorem put32_EVT_HMAP_CTRL (p : Fin 2) (ht : s.takes q (Reg.EVT_HMAP_CTRL p.val) w = true) :
    s.put32 q (Reg.EVT_HMAP_CTRL p.val) w = { State.candsBegin s (s.hmapCtrl p.val w) with resp := {} } := by
  obtain ⟨_, _, _, h, hf, _⟩ := takes_iff.1 ht
  have hx := find_EVT_HMAP_CTRL p
  rw [hf] at hx
  simp only [Option.map_some, Option.some.injEq, Prod.mk.injEq] at hx
  obtain ⟨hn, hi, _, _⟩ := hx
  rw [put32_taken ht hf]
  have hb : s.applyWord q h (Reg.EVT_HMAP_CTRL p.val) w = State.candsBegin s (s.hmapCtrl p.val w) := by
    have hd : (Reg.EVT_HMAP_CTRL p.val) / 0x10000 = 0x705 := by simp only [Reg.EVT_HMAP_CTRL]; omega
    simp [State.applyWord, hd, State.applyCore, State.applyEngine, hn, hi]
  rw [hb]

theorem find_STG_DOORBELL : ∀ (e : Fin 2), (findReg (Reg.STG_DOORBELL e.val)).map (fun h => (h.name, h.i, h.j, h.upper)) =
    some (.STG_DOORBELL, e.val, 0, false) := by decide

/-- An accepted write of STG_DOORBELL. -/
theorem put32_STG_DOORBELL (e : Fin 2) (ht : s.takes q (Reg.STG_DOORBELL e.val) w = true) :
    s.put32 q (Reg.STG_DOORBELL e.val) w = { s.stgRing q e.val w with resp := {} } := by
  obtain ⟨_, _, _, h, hf, _⟩ := takes_iff.1 ht
  have hx := find_STG_DOORBELL e
  rw [hf] at hx
  simp only [Option.map_some, Option.some.injEq, Prod.mk.injEq] at hx
  obtain ⟨hn, hi, _, _⟩ := hx
  rw [put32_taken ht hf]
  have hb : s.applyWord q h (Reg.STG_DOORBELL e.val) w = s.stgRing q e.val w := by
    have hd : (Reg.STG_DOORBELL e.val) / 0x10000 = 0x716 := by simp only [Reg.STG_DOORBELL]; omega
    simp [State.applyWord, hd, State.applyStg, hn, hi]
  rw [hb]

theorem find_STG_SENDGO : ∀ (e : Fin 2), (findReg (Reg.STG_SENDGO e.val)).map (fun h => (h.name, h.i, h.j, h.upper)) =
    some (.STG_SENDGO, e.val, 0, false) := by decide

/-- An accepted write of STG_SENDGO. -/
theorem put32_STG_SENDGO (e : Fin 2) (ht : s.takes q (Reg.STG_SENDGO e.val) w = true) :
    s.put32 q (Reg.STG_SENDGO e.val) w = { s.stgSend e.val (bit w 0) with resp := {} } := by
  obtain ⟨_, _, _, h, hf, _⟩ := takes_iff.1 ht
  have hx := find_STG_SENDGO e
  rw [hf] at hx
  simp only [Option.map_some, Option.some.injEq, Prod.mk.injEq] at hx
  obtain ⟨hn, hi, _, _⟩ := hx
  rw [put32_taken ht hf]
  have hb : s.applyWord q h (Reg.STG_SENDGO e.val) w = s.stgSend e.val (bit w 0) := by
    have hd : (Reg.STG_SENDGO e.val) / 0x10000 = 0x716 := by simp only [Reg.STG_SENDGO]; omega
    simp [State.applyWord, hd, State.applyStg, hn, hi]
  rw [hb]

theorem find_STG_SVC_POP : ∀ (e : Fin 2), (findReg (Reg.STG_SVC_POP e.val)).map (fun h => (h.name, h.i, h.j, h.upper)) =
    some (.STG_SVC_POP, e.val, 0, false) := by decide

/-- An accepted write of STG_SVC_POP. -/
theorem put32_STG_SVC_POP (e : Fin 2) (ht : s.takes q (Reg.STG_SVC_POP e.val) w = true) :
    s.put32 q (Reg.STG_SVC_POP e.val) w = { (if bit w 0 then s.stgPop e.val else s) with resp := {} } := by
  obtain ⟨_, _, _, h, hf, _⟩ := takes_iff.1 ht
  have hx := find_STG_SVC_POP e
  rw [hf] at hx
  simp only [Option.map_some, Option.some.injEq, Prod.mk.injEq] at hx
  obtain ⟨hn, hi, _, _⟩ := hx
  rw [put32_taken ht hf]
  have hb : s.applyWord q h (Reg.STG_SVC_POP e.val) w = if bit w 0 then s.stgPop e.val else s := by
    have hd : (Reg.STG_SVC_POP e.val) / 0x10000 = 0x716 := by simp only [Reg.STG_SVC_POP]; omega
    simp [State.applyWord, hd, State.applyStg, hn, hi]
  rw [hb]

theorem find_STG_CTRL : ∀ (e : Fin 2), (findReg (Reg.STG_CTRL e.val)).map (fun h => (h.name, h.i, h.j, h.upper)) =
    some (.STG_CTRL, e.val, 0, false) := by decide

/-- An accepted write of STG_CTRL. -/
theorem put32_STG_CTRL (e : Fin 2) (ht : s.takes q (Reg.STG_CTRL e.val) w = true) :
    s.put32 q (Reg.STG_CTRL e.val) w = { s.stgCtrl q e.val w with resp := {} } := by
  obtain ⟨_, _, _, h, hf, _⟩ := takes_iff.1 ht
  have hx := find_STG_CTRL e
  rw [hf] at hx
  simp only [Option.map_some, Option.some.injEq, Prod.mk.injEq] at hx
  obtain ⟨hn, hi, _, _⟩ := hx
  rw [put32_taken ht hf]
  have hb : s.applyWord q h (Reg.STG_CTRL e.val) w = s.stgCtrl q e.val w := by
    have hd : (Reg.STG_CTRL e.val) / 0x10000 = 0x716 := by simp only [Reg.STG_CTRL]; omega
    simp [State.applyWord, hd, State.applyStg, hn, hi]
  rw [hb]

theorem find_VE_CTRL : ∀ (n : Fin 64), (findReg (Reg.VE_CTRL n.val)).map (fun h => (h.name, h.i, h.j, h.upper)) =
    some (.VE_CTRL, n.val, 0, false) := by decide

/-- An accepted write of VE_CTRL. -/
theorem put32_VE_CTRL (n : Fin 64) (ht : s.takes q (Reg.VE_CTRL n.val) w = true) :
    s.put32 q (Reg.VE_CTRL n.val) w = { s.veCtrl n.val w with resp := {} } := by
  obtain ⟨_, _, _, h, hf, _⟩ := takes_iff.1 ht
  have hx := find_VE_CTRL n
  rw [hf] at hx
  simp only [Option.map_some, Option.some.injEq, Prod.mk.injEq] at hx
  obtain ⟨hn, hi, _, _⟩ := hx
  rw [put32_taken ht hf]
  have hb : s.applyWord q h (Reg.VE_CTRL n.val) w = s.veCtrl n.val w := by
    have hd : (Reg.VE_CTRL n.val) / 0x10000 = 0x709 := by simp only [Reg.VE_CTRL]; omega
    simp [State.applyWord, hd, State.applyCore, State.applyEngine, hn, hi]
  rw [hb]

theorem find_WS_OWN : ∀ (b : Fin 16), (findReg (Reg.WS_OWN b.val)).map (fun h => (h.name, h.i, h.j, h.upper)) =
    some (.WS_OWN, b.val, 0, false) := by decide

/-- An accepted write of WS_OWN. -/
theorem put32_WS_OWN (b : Fin 16) (ht : s.takes q (Reg.WS_OWN b.val) w = true) :
    s.put32 q (Reg.WS_OWN b.val) w = { s.wsOwnWrite b.val w with resp := {} } := by
  obtain ⟨_, _, _, h, hf, _⟩ := takes_iff.1 ht
  have hx := find_WS_OWN b
  rw [hf] at hx
  simp only [Option.map_some, Option.some.injEq, Prod.mk.injEq] at hx
  obtain ⟨hn, hi, _, _⟩ := hx
  rw [put32_taken ht hf]
  have hb : s.applyWord q h (Reg.WS_OWN b.val) w = s.wsOwnWrite b.val w := by
    have hd : (Reg.WS_OWN b.val) / 0x10000 = 0x70A := by simp only [Reg.WS_OWN]; omega
    simp [State.applyWord, hd, State.applyCore, State.applyEngine, hn, hi]
  rw [hb]

theorem find_PUP_TASK_CFG : ∀ (t : Fin 256), (findReg (Reg.PUP_TASK_CFG t.val)).map (fun h => (h.name, h.i, h.j, h.upper)) =
    some (.PUP_TASK_CFG, t.val, 0, false) := by decide

/-- An accepted write of PUP_TASK_CFG. -/
theorem put32_PUP_TASK_CFG (t : Fin 256) (ht : s.takes q (Reg.PUP_TASK_CFG t.val) w = true) :
    s.put32 q (Reg.PUP_TASK_CFG t.val) w = { s.taskCfgWrite t.val w with resp := {} } := by
  obtain ⟨_, _, _, h, hf, _⟩ := takes_iff.1 ht
  have hx := find_PUP_TASK_CFG t
  rw [hf] at hx
  simp only [Option.map_some, Option.some.injEq, Prod.mk.injEq] at hx
  obtain ⟨hn, hi, _, _⟩ := hx
  rw [put32_taken ht hf]
  have hb : s.applyWord q h (Reg.PUP_TASK_CFG t.val) w = s.taskCfgWrite t.val w := by
    have hd : (Reg.PUP_TASK_CFG t.val) / 0x10000 = 0x707 := by simp only [Reg.PUP_TASK_CFG]; omega
    simp [State.applyWord, hd, State.applyCore, State.applyEngine, hn, hi]
  rw [hb]

theorem find_DAC_STROBE : (findReg Reg.DAC_STROBE).map (fun h => (h.name, h.i, h.j, h.upper)) =
    some (.DAC_STROBE, 0, 0, false) := by decide

/-- An accepted write of DAC_STROBE. -/
theorem put32_DAC_STROBE (ht : s.takes q Reg.DAC_STROBE w = true) :
    s.put32 q Reg.DAC_STROBE w = { s.dacStrobeFrom 1 (bit w 1) (bit w 0) with resp := {} } := by
  obtain ⟨_, _, _, h, hf, _⟩ := takes_iff.1 ht
  have hx := find_DAC_STROBE
  rw [hf] at hx
  simp only [Option.map_some, Option.some.injEq, Prod.mk.injEq] at hx
  obtain ⟨hn, _, _, _⟩ := hx
  rw [put32_taken ht hf]
  have hb : s.applyWord q h Reg.DAC_STROBE w = s.dacStrobeFrom 1 (bit w 1) (bit w 0) := by
    simp [State.applyWord, Reg.DAC_STROBE, State.applyDac, State.applyCore, State.applyUnits, hn]
  rw [hb]

theorem find_DAC_CH_STAT : ∀ (c : Fin 8), (findReg (Reg.DAC_CH_STAT c.val)).map (fun h => (h.name, h.i, h.j, h.upper)) =
    some (.DAC_CH_STAT, c.val, 0, false) := by decide

/-- An accepted write of DAC_CH_STAT. -/
theorem put32_DAC_CH_STAT (c : Fin 8) (ht : s.takes q (Reg.DAC_CH_STAT c.val) w = true) :
    s.put32 q (Reg.DAC_CH_STAT c.val) w =
      { (s.dacStatWrite c.val w).dacSourceChanged s.dacSources with resp := {} } := by
  obtain ⟨_, _, _, h, hf, _⟩ := takes_iff.1 ht
  have hx := find_DAC_CH_STAT c
  rw [hf] at hx
  simp only [Option.map_some, Option.some.injEq, Prod.mk.injEq] at hx
  obtain ⟨hn, hi, _, _⟩ := hx
  rw [put32_taken ht hf]
  have hb : s.applyWord q h (Reg.DAC_CH_STAT c.val) w = (s.dacStatWrite c.val w).dacSourceChanged s.dacSources := by
    have hd : (Reg.DAC_CH_STAT c.val) / 0x10000 = 0x70D := by simp only [Reg.DAC_CH_STAT]; omega
    simp [State.applyWord, hd, State.applyDac, State.applyCore, State.applyUnits, hn, hi]
  rw [hb]

theorem find_UART_CFG : ∀ (u : Fin 4), (findReg (Reg.UART_CFG u.val)).map (fun h => (h.name, h.i, h.j, h.upper)) =
    some (.UART_CFG, u.val, 0, false) := by decide

/-- An accepted write of UART_CFG. -/
theorem put32_UART_CFG (u : Fin 4) (ht : s.takes q (Reg.UART_CFG u.val) w = true) :
    s.put32 q (Reg.UART_CFG u.val) w = { s.uartCfgWrite u.val w with resp := {} } := by
  obtain ⟨_, _, _, h, hf, _⟩ := takes_iff.1 ht
  have hx := find_UART_CFG u
  rw [hf] at hx
  simp only [Option.map_some, Option.some.injEq, Prod.mk.injEq] at hx
  obtain ⟨hn, hi, _, _⟩ := hx
  rw [put32_taken ht hf]
  have hb : s.applyWord q h (Reg.UART_CFG u.val) w = s.uartCfgWrite u.val w := by
    have hd : (Reg.UART_CFG u.val) / 0x10000 = 0x70F := by simp only [Reg.UART_CFG]; omega
    simp [State.applyWord, hd, State.applyCore, State.applyUnits, hn, hi]
  rw [hb]

theorem find_UART_TXD : ∀ (u : Fin 4), (findReg (Reg.UART_TXD u.val)).map (fun h => (h.name, h.i, h.j, h.upper)) =
    some (.UART_TXD, u.val, 0, false) := by decide

/-- An accepted write of UART_TXD. -/
theorem put32_UART_TXD (u : Fin 4) (ht : s.takes q (Reg.UART_TXD u.val) w = true) :
    s.put32 q (Reg.UART_TXD u.val) w = { s.uartSend u.val w with resp := {} } := by
  obtain ⟨_, _, _, h, hf, _⟩ := takes_iff.1 ht
  have hx := find_UART_TXD u
  rw [hf] at hx
  simp only [Option.map_some, Option.some.injEq, Prod.mk.injEq] at hx
  obtain ⟨hn, hi, _, _⟩ := hx
  rw [put32_taken ht hf]
  have hb : s.applyWord q h (Reg.UART_TXD u.val) w = s.uartSend u.val w := by
    have hd : (Reg.UART_TXD u.val) / 0x10000 = 0x70F := by simp only [Reg.UART_TXD]; omega
    simp [State.applyWord, hd, State.applyCore, State.applyUnits, hn, hi]
  rw [hb]

theorem find_UART_CTRL : ∀ (u : Fin 4), (findReg (Reg.UART_CTRL u.val)).map (fun h => (h.name, h.i, h.j, h.upper)) =
    some (.UART_CTRL, u.val, 0, false) := by decide

/-- An accepted write of UART_CTRL. -/
theorem put32_UART_CTRL (u : Fin 4) (ht : s.takes q (Reg.UART_CTRL u.val) w = true) :
    s.put32 q (Reg.UART_CTRL u.val) w = { s.uartCtrlWrite u.val w with resp := {} } := by
  obtain ⟨_, _, _, h, hf, _⟩ := takes_iff.1 ht
  have hx := find_UART_CTRL u
  rw [hf] at hx
  simp only [Option.map_some, Option.some.injEq, Prod.mk.injEq] at hx
  obtain ⟨hn, hi, _, _⟩ := hx
  rw [put32_taken ht hf]
  have hb : s.applyWord q h (Reg.UART_CTRL u.val) w = s.uartCtrlWrite u.val w := by
    have hd : (Reg.UART_CTRL u.val) / 0x10000 = 0x70F := by simp only [Reg.UART_CTRL]; omega
    simp [State.applyWord, hd, State.applyCore, State.applyUnits, hn, hi]
  rw [hb]

theorem find_UART_FHDR : ∀ (u : Fin 4), (findReg (Reg.UART_FHDR u.val)).map (fun h => (h.name, h.i, h.j, h.upper)) =
    some (.UART_FHDR, u.val, 0, false) := by decide

/-- An accepted write of UART_FHDR. -/
theorem put32_UART_FHDR (u : Fin 4) (ht : s.takes q (Reg.UART_FHDR u.val) w = true) :
    s.put32 q (Reg.UART_FHDR u.val) w = { s.uartFhdrWrite u.val w with resp := {} } := by
  obtain ⟨_, _, _, h, hf, _⟩ := takes_iff.1 ht
  have hx := find_UART_FHDR u
  rw [hf] at hx
  simp only [Option.map_some, Option.some.injEq, Prod.mk.injEq] at hx
  obtain ⟨hn, hi, _, _⟩ := hx
  rw [put32_taken ht hf]
  have hb : s.applyWord q h (Reg.UART_FHDR u.val) w = s.uartFhdrWrite u.val w := by
    have hd : (Reg.UART_FHDR u.val) / 0x10000 = 0x70F := by simp only [Reg.UART_FHDR]; omega
    simp [State.applyWord, hd, State.applyCore, State.applyUnits, hn, hi]
  rw [hb]

theorem find_TMR_COUNT : ∀ (t : Fin 16), (findReg (Reg.TMR_COUNT t.val)).map (fun h => (h.name, h.i, h.j, h.upper)) =
    some (.TMR_COUNT, t.val, 0, false) := by decide

/-- An accepted write of TMR_COUNT. -/
theorem put32_TMR_COUNT (t : Fin 16) (ht : s.takes q (Reg.TMR_COUNT t.val) w = true) :
    s.put32 q (Reg.TMR_COUNT t.val) w = { s.tmrWind t.val w with resp := {} } := by
  obtain ⟨_, _, _, h, hf, _⟩ := takes_iff.1 ht
  have hx := find_TMR_COUNT t
  rw [hf] at hx
  simp only [Option.map_some, Option.some.injEq, Prod.mk.injEq] at hx
  obtain ⟨hn, hi, _, _⟩ := hx
  rw [put32_taken ht hf]
  have hb : s.applyWord q h (Reg.TMR_COUNT t.val) w = s.tmrWind t.val w := by
    have hd : (Reg.TMR_COUNT t.val) / 0x10000 = 0x710 := by simp only [Reg.TMR_COUNT]; omega
    simp [State.applyWord, hd, State.applyCore, State.applyUnits, hn, hi]
  rw [hb]

theorem find_TMR_CFG : ∀ (t : Fin 16), (findReg (Reg.TMR_CFG t.val)).map (fun h => (h.name, h.i, h.j, h.upper)) =
    some (.TMR_CFG, t.val, 0, false) := by decide

/-- An accepted write of TMR_CFG. -/
theorem put32_TMR_CFG (t : Fin 16) (ht : s.takes q (Reg.TMR_CFG t.val) w = true) :
    s.put32 q (Reg.TMR_CFG t.val) w = { s.tmrCfg t.val w with resp := {} } := by
  obtain ⟨_, _, _, h, hf, _⟩ := takes_iff.1 ht
  have hx := find_TMR_CFG t
  rw [hf] at hx
  simp only [Option.map_some, Option.some.injEq, Prod.mk.injEq] at hx
  obtain ⟨hn, hi, _, _⟩ := hx
  rw [put32_taken ht hf]
  have hb : s.applyWord q h (Reg.TMR_CFG t.val) w = s.tmrCfg t.val w := by
    have hd : (Reg.TMR_CFG t.val) / 0x10000 = 0x710 := by simp only [Reg.TMR_CFG]; omega
    simp [State.applyWord, hd, State.applyCore, State.applyUnits, hn, hi]
  rw [hb]

theorem find_CHK_CTRL : ∀ (k : Fin 4), (findReg (Reg.CHK_CTRL k.val)).map (fun h => (h.name, h.i, h.j, h.upper)) =
    some (.CHK_CTRL, k.val, 0, false) := by decide

/-- An accepted write of CHK_CTRL. -/
theorem put32_CHK_CTRL (k : Fin 4) (ht : s.takes q (Reg.CHK_CTRL k.val) w = true) :
    s.put32 q (Reg.CHK_CTRL k.val) w = { s.chkCtrl k.val w with resp := {} } := by
  obtain ⟨_, _, _, h, hf, _⟩ := takes_iff.1 ht
  have hx := find_CHK_CTRL k
  rw [hf] at hx
  simp only [Option.map_some, Option.some.injEq, Prod.mk.injEq] at hx
  obtain ⟨hn, hi, _, _⟩ := hx
  rw [put32_taken ht hf]
  have hb : s.applyWord q h (Reg.CHK_CTRL k.val) w = s.chkCtrl k.val w := by
    have hd : (Reg.CHK_CTRL k.val) / 0x10000 = 0x711 := by simp only [Reg.CHK_CTRL]; omega
    simp [State.applyWord, hd, State.applyCore, State.applyUnits, hn, hi]
  rw [hb]

theorem find_CHK_CFG : ∀ (k : Fin 4), (findReg (Reg.CHK_CFG k.val)).map (fun h => (h.name, h.i, h.j, h.upper)) =
    some (.CHK_CFG, k.val, 0, false) := by decide

/-- An accepted write of CHK_CFG. -/
theorem put32_CHK_CFG (k : Fin 4) (ht : s.takes q (Reg.CHK_CFG k.val) w = true) :
    s.put32 q (Reg.CHK_CFG k.val) w = { s.chkCfg k.val w with resp := {} } := by
  obtain ⟨_, _, _, h, hf, _⟩ := takes_iff.1 ht
  have hx := find_CHK_CFG k
  rw [hf] at hx
  simp only [Option.map_some, Option.some.injEq, Prod.mk.injEq] at hx
  obtain ⟨hn, hi, _, _⟩ := hx
  rw [put32_taken ht hf]
  have hb : s.applyWord q h (Reg.CHK_CFG k.val) w = s.chkCfg k.val w := by
    have hd : (Reg.CHK_CFG k.val) / 0x10000 = 0x711 := by simp only [Reg.CHK_CFG]; omega
    simp [State.applyWord, hd, State.applyCore, State.applyUnits, hn, hi]
  rw [hb]

theorem find_CHK_DIN : ∀ (k : Fin 4) (n : Fin 4), (findReg (Reg.CHK_DIN k.val n.val)).map (fun h => (h.name, h.i, h.j, h.upper)) =
    some (.CHK_DIN, k.val, n.val, false) := by decide

/-- An accepted write of CHK_DIN. -/
theorem put32_CHK_DIN (k : Fin 4) (n : Fin 4) (ht : s.takes q (Reg.CHK_DIN k.val n.val) w = true) :
    s.put32 q (Reg.CHK_DIN k.val n.val) w = { s.chkFeed k.val (n.val + 1) w with resp := {} } := by
  obtain ⟨_, _, _, h, hf, _⟩ := takes_iff.1 ht
  have hx := find_CHK_DIN k n
  rw [hf] at hx
  simp only [Option.map_some, Option.some.injEq, Prod.mk.injEq] at hx
  obtain ⟨hn, hi, hj, _⟩ := hx
  rw [put32_taken ht hf]
  have hb : s.applyWord q h (Reg.CHK_DIN k.val n.val) w = s.chkFeed k.val (n.val + 1) w := by
    have hd : (Reg.CHK_DIN k.val n.val) / 0x10000 = 0x711 := by simp only [Reg.CHK_DIN]; omega
    simp [State.applyWord, hd, State.applyCore, State.applyUnits, hn, hi, hj]
  rw [hb]

theorem find_CHK_AIN : ∀ (k : Fin 4), (findReg (Reg.CHK_AIN k.val)).map (fun h => (h.name, h.i, h.j, h.upper)) =
    some (.CHK_AIN, k.val, 0, false) := by decide

/-- An accepted write of CHK_AIN. -/
theorem put32_CHK_AIN (k : Fin 4) (ht : s.takes q (Reg.CHK_AIN k.val) w = true) :
    s.put32 q (Reg.CHK_AIN k.val) w = { s.chkAlive k.val w with resp := {} } := by
  obtain ⟨_, _, _, h, hf, _⟩ := takes_iff.1 ht
  have hx := find_CHK_AIN k
  rw [hf] at hx
  simp only [Option.map_some, Option.some.injEq, Prod.mk.injEq] at hx
  obtain ⟨hn, hi, _, _⟩ := hx
  rw [put32_taken ht hf]
  have hb : s.applyWord q h (Reg.CHK_AIN k.val) w = s.chkAlive k.val w := by
    have hd : (Reg.CHK_AIN k.val) / 0x10000 = 0x711 := by simp only [Reg.CHK_AIN]; omega
    simp [State.applyWord, hd, State.applyCore, State.applyUnits, hn, hi]
  rw [hb]

theorem find_SEC_FUSE_CTRL : (findReg Reg.SEC_FUSE_CTRL).map (fun h => (h.name, h.i, h.j, h.upper)) =
    some (.SEC_FUSE_CTRL, 0, 0, false) := by decide

/-- An accepted write of SEC_FUSE_CTRL. -/
theorem put32_SEC_FUSE_CTRL (ht : s.takes q Reg.SEC_FUSE_CTRL w = true) :
    s.put32 q Reg.SEC_FUSE_CTRL w = { s.fuseStart w with resp := {} } := by
  obtain ⟨_, _, _, h, hf, _⟩ := takes_iff.1 ht
  have hx := find_SEC_FUSE_CTRL
  rw [hf] at hx
  simp only [Option.map_some, Option.some.injEq, Prod.mk.injEq] at hx
  obtain ⟨hn, _, _, _⟩ := hx
  rw [put32_taken ht hf]
  have hb : s.applyWord q h Reg.SEC_FUSE_CTRL w = s.fuseStart w := by
    simp [State.applyWord, Reg.SEC_FUSE_CTRL, State.applySecure, hn]
  rw [hb]

theorem find_SEC_SEAL_REQ : (findReg Reg.SEC_SEAL_REQ).map (fun h => (h.name, h.i, h.j, h.upper)) =
    some (.SEC_SEAL_REQ, 0, 0, false) := by decide

/-- An accepted write of SEC_SEAL_REQ. -/
theorem put32_SEC_SEAL_REQ (ht : s.takes q Reg.SEC_SEAL_REQ w = true) :
    s.put32 q Reg.SEC_SEAL_REQ w = { (if bit w 31 then s.sealStart q (fld w 3 0) else s) with resp := {} } := by
  obtain ⟨_, _, _, h, hf, _⟩ := takes_iff.1 ht
  have hx := find_SEC_SEAL_REQ
  rw [hf] at hx
  simp only [Option.map_some, Option.some.injEq, Prod.mk.injEq] at hx
  obtain ⟨hn, _, _, _⟩ := hx
  rw [put32_taken ht hf]
  have hb : s.applyWord q h Reg.SEC_SEAL_REQ w = if bit w 31 then s.sealStart q (fld w 3 0) else s := by
    simp [State.applyWord, Reg.SEC_SEAL_REQ, State.applySecure, hn]
  rw [hb]

theorem find_SEC_ATT_CTRL : ∀ (i : Fin 4), (findReg (Reg.SEC_ATT_CTRL i.val)).map (fun h => (h.name, h.i, h.j, h.upper)) =
    some (.SEC_ATT_CTRL, i.val, 0, false) := by decide

/-- An accepted write of SEC_ATT_CTRL. -/
theorem put32_SEC_ATT_CTRL (i : Fin 4) (ht : s.takes q (Reg.SEC_ATT_CTRL i.val) w = true) :
    s.put32 q (Reg.SEC_ATT_CTRL i.val) w = { (if bit w 0 then s.attestGo i.val else s) with resp := {} } := by
  obtain ⟨_, _, _, h, hf, _⟩ := takes_iff.1 ht
  have hx := find_SEC_ATT_CTRL i
  rw [hf] at hx
  simp only [Option.map_some, Option.some.injEq, Prod.mk.injEq] at hx
  obtain ⟨hn, hi, _, _⟩ := hx
  rw [put32_taken ht hf]
  have hb : s.applyWord q h (Reg.SEC_ATT_CTRL i.val) w = if bit w 0 then s.attestGo i.val else s := by
    have hd : (Reg.SEC_ATT_CTRL i.val) / 0x10000 = 0x712 := by simp only [Reg.SEC_ATT_CTRL]; omega
    simp [State.applyWord, hd, State.applySecure, hn, hi]
  rw [hb]

theorem find_SEC_DBG_CTRL : ∀ (i : Fin 4), (findReg (Reg.SEC_DBG_CTRL i.val)).map (fun h => (h.name, h.i, h.j, h.upper)) =
    some (.SEC_DBG_CTRL, i.val, 0, false) := by decide

/-- An accepted write of SEC_DBG_CTRL. -/
theorem put32_SEC_DBG_CTRL (i : Fin 4) (ht : s.takes q (Reg.SEC_DBG_CTRL i.val) w = true) :
    s.put32 q (Reg.SEC_DBG_CTRL i.val) w = { s.dbgCtrl i.val w with resp := {} } := by
  obtain ⟨_, _, _, h, hf, _⟩ := takes_iff.1 ht
  have hx := find_SEC_DBG_CTRL i
  rw [hf] at hx
  simp only [Option.map_some, Option.some.injEq, Prod.mk.injEq] at hx
  obtain ⟨hn, hi, _, _⟩ := hx
  rw [put32_taken ht hf]
  have hb : s.applyWord q h (Reg.SEC_DBG_CTRL i.val) w = s.dbgCtrl i.val w := by
    have hd : (Reg.SEC_DBG_CTRL i.val) / 0x10000 = 0x712 := by simp only [Reg.SEC_DBG_CTRL]; omega
    simp [State.applyWord, hd, State.applySecure, hn, hi]
  rw [hb]

theorem find_NVM_CMD : (findReg Reg.NVM_CMD).map (fun h => (h.name, h.i, h.j, h.upper)) =
    some (.NVM_CMD, 0, 0, false) := by decide

/-- An accepted write of NVM_CMD. -/
theorem put32_NVM_CMD (ht : s.takes q Reg.NVM_CMD w = true) :
    s.put32 q Reg.NVM_CMD w = { s.nvmCmd q w with resp := {} } := by
  obtain ⟨_, _, _, h, hf, _⟩ := takes_iff.1 ht
  have hx := find_NVM_CMD
  rw [hf] at hx
  simp only [Option.map_some, Option.some.injEq, Prod.mk.injEq] at hx
  obtain ⟨hn, _, _, _⟩ := hx
  rw [put32_taken ht hf]
  have hb : s.applyWord q h Reg.NVM_CMD w = s.nvmCmd q w := by
    simp [State.applyWord, Reg.NVM_CMD, State.applySecure, hn]
  rw [hb]

theorem find_PWR_REQSET : (findReg Reg.PWR_REQSET).map (fun h => (h.name, h.i, h.j, h.upper)) =
    some (.PWR_REQSET, 0, 0, false) := by decide

/-- An accepted write of PWR_REQSET. -/
theorem put32_PWR_REQSET (ht : s.takes q Reg.PWR_REQSET w = true) :
    s.put32 q Reg.PWR_REQSET w = { s.pwrReqset w with resp := {} } := by
  obtain ⟨_, _, _, h, hf, _⟩ := takes_iff.1 ht
  have hx := find_PWR_REQSET
  rw [hf] at hx
  simp only [Option.map_some, Option.some.injEq, Prod.mk.injEq] at hx
  obtain ⟨hn, _, _, _⟩ := hx
  rw [put32_taken ht hf]
  have hb : s.applyWord q h Reg.PWR_REQSET w = s.pwrReqset w := by
    simp [State.applyWord, Reg.PWR_REQSET, State.applyCore, State.applyUnits, hn]
  rw [hb]

theorem find_PWR_REQCLR : (findReg Reg.PWR_REQCLR).map (fun h => (h.name, h.i, h.j, h.upper)) =
    some (.PWR_REQCLR, 0, 0, false) := by decide

/-- An accepted write of PWR_REQCLR. -/
theorem put32_PWR_REQCLR (ht : s.takes q Reg.PWR_REQCLR w = true) :
    s.put32 q Reg.PWR_REQCLR w = { s.pwrReqclr q w with resp := {} } := by
  obtain ⟨_, _, _, h, hf, _⟩ := takes_iff.1 ht
  have hx := find_PWR_REQCLR
  rw [hf] at hx
  simp only [Option.map_some, Option.some.injEq, Prod.mk.injEq] at hx
  obtain ⟨hn, _, _, _⟩ := hx
  rw [put32_taken ht hf]
  have hb : s.applyWord q h Reg.PWR_REQCLR w = s.pwrReqclr q w := by
    simp [State.applyWord, Reg.PWR_REQCLR, State.applyCore, State.applyUnits, hn]
  rw [hb]

end Sys2Proof.Machine
end

