-- ==== Sys2Proof/Laws/Serial.lean ====
section
/-! SUPPORT. The laws of the serial ports: what a cause, a flag, a stored entry and the end of a frame can change. -/

namespace Sys2Proof.Machine

variable (s : State)

theorem setUart_uart (u : Nat) (x : Uart) : (s.setUart u x).uart u = x := setUart_uart_same s u x

/-- A cause of UART u changes registers and ports only. -/
theorem uartCause_only (u b : Nat) :
    s.uartCause u b = { s with csr := (s.uartCause u b).csr, ports := (s.uartCause u b).ports } := by
  unfold State.uartCause
  split
  · split
    · exact cause_only ..
    · exact cause_only ..
    · rfl
  · rfl

@[simp] theorem uartCause_uart (u b n : Nat) : (s.uartCause u b).uart n = s.uart n := by
  rw [uartCause_only]; rfl

/-- A cause of UART u changes no register outside the ports' blocks. -/
theorem uartCause_reg (u b a : Nat) (h : a < 0x07010000 ∨ 0x07030000 ≤ a) : (s.uartCause u b).reg a = s.reg a := by
  have e : ∀ p, p < 2 → a ≠ Reg.HPx_IRQ_STAT p := by intro p hp; simp only [Reg.HPx_IRQ_STAT]; omega
  unfold State.uartCause
  split
  · split
    · exact cause_reg_other _ _ _ _ (e 0 (by omega))
    · exact cause_reg_other _ _ _ _ (e 1 (by omega))
    · rfl
  · rfl

theorem uartFlag_eq (u b : Nat) : s.uartFlag u b = s.orReg (Reg.UART_STAT u) (onebit b) := rfl

/-- The second state is the first with only registers, ports and serial ports changed. -/
def SerialStep (s t : State) : Prop := t = { s with uarts := t.uarts, csr := t.csr, ports := t.ports }

theorem SerialStep.refl : SerialStep s s := rfl

theorem SerialStep.trans {s t u : State} (h : SerialStep s t) (k : SerialStep t u) : SerialStep s u := by
  unfold SerialStep at *
  rw [k, h]

theorem serialStep_setUart (u : Nat) (x : Uart) : SerialStep s (s.setUart u x) := rfl
theorem serialStep_setReg (a : Nat) (w : Word) : SerialStep s (s.setReg a w) := rfl
theorem serialStep_cause (u b : Nat) : SerialStep s (s.uartCause u b) := by
  unfold SerialStep; rw [uartCause_only]

/-- An entry with a flag is counted and reported before it is stored. -/
def State.uartNoted (s : State) (u : Nat) (w : Word) : State :=
  if entryBad w then ((s.count (Reg.UART_CNT u 1)).uartFlag u 1).uartCause u 1 else s

theorem uartNoted_step (u : Nat) (w : Word) : SerialStep s (s.uartNoted u w) := by
  unfold State.uartNoted
  split
  · exact (show SerialStep s ((s.count (Reg.UART_CNT u 1)).uartFlag u 1) from rfl).trans (serialStep_cause ..)
  · rfl

@[simp] theorem uartNoted_uart (u n : Nat) (w : Word) : (s.uartNoted u w).uart n = s.uart n := by
  unfold State.uartNoted
  split
  · rw [uartCause_uart]; rfl
  · rfl

/-- Storing an entry, case by case (R549): room in the queue, or none. -/
theorem uartStore_room (u : Nat) (w : Word) (h : (s.uart u).rxq.length < 16) :
    s.uartStore u w =
      if (s.uart u).rxq.isEmpty then ((s.uartNoted u w).setUart u { s.uart u with rxq := (s.uart u).rxq ++ [w] }).uartCause u 0
      else (s.uartNoted u w).setUart u { s.uart u with rxq := (s.uart u).rxq ++ [w] } := by
  simp only [State.uartStore, h, if_true]; rfl

theorem uartStore_full (u : Nat) (w : Word) (h : ¬ (s.uart u).rxq.length < 16) :
    s.uartStore u w = (((s.uartNoted u w).setUart u
      { s.uart u with rxq := (s.uart u).rxq.take 15 ++ [w ||| onebit 20] }).count (Reg.UART_CNT u 2)).uartFlag u 0 := by
  simp only [State.uartStore, h, if_false]; rfl

theorem uartStore_step (u : Nat) (w : Word) : SerialStep s (s.uartStore u w) := by
  by_cases h : (s.uart u).rxq.length < 16
  · rw [uartStore_room s u w h]
    split
    · exact ((uartNoted_step s u w).trans (serialStep_setUart ..)).trans (serialStep_cause ..)
    · exact (uartNoted_step s u w).trans (serialStep_setUart ..)
  · rw [uartStore_full s u w h]
    exact (((uartNoted_step s u w).trans (serialStep_setUart ..)).trans (serialStep_setReg ..)).trans (serialStep_setReg ..)

/-- The UART that stores an entry, and every other. -/
theorem uartStore_uart (u : Nat) (w : Word) : (s.uartStore u w).uart u = { s.uart u with
    rxq := if (s.uart u).rxq.length < 16 then (s.uart u).rxq ++ [w] else (s.uart u).rxq.take 15 ++ [w ||| onebit 20] } := by
  by_cases h : (s.uart u).rxq.length < 16
  · rw [uartStore_room s u w h, if_pos h]
    split
    · rw [uartCause_uart, setUart_uart_same]
    · rw [setUart_uart_same]
  · rw [uartStore_full s u w h, if_neg h]
    exact setUart_uart_same ..

theorem uartStore_uart_other (u n : Nat) (w : Word) (h : n ≠ u) : (s.uartStore u w).uart n = s.uart n := by
  by_cases k : (s.uart u).rxq.length < 16
  · rw [uartStore_room s u w k]
    split
    · rw [uartCause_uart, setUart_uart_other _ h, uartNoted_uart]
    · rw [setUart_uart_other _ h, uartNoted_uart]
  · rw [uartStore_full s u w k]
    show ((s.uartNoted u w).setUart u _).uart n = _
    rw [setUart_uart_other _ h, uartNoted_uart]

end Sys2Proof.Machine
end

