-- ==== Sys2Proof/Tests/Slice0.lean ====
section
/-! SUPPORT. Tests of the model: what WellFormed refuses, values that the manual gives, and for each statement of
Certificates/Slice0/Obligations.lean a concrete state and operands that meet the hypotheses of each of its clauses. -/

set_option Elab.async false

namespace Sys2Proof.Tests

open Sys2Proof Sys2Proof.Machine

/-- A device in RUN at frame 100, media clock FREE, both ports in D0 with their links up, with these register words, the clear
after OFF being done. -/
def up (l : List (Nat × Word)) : State :=
  { State.reset with
    phase := .run, now := some 100, mck := { st := .free }, csr := l ++ [(Reg.WS_STAT, 0)]
    ports := [(0, { link := .l0 }), (1, { link := .l0 })] }

/-- The state after a command. -/
def after (c : Instr) (s : State) : State := (nextOf (exec c s)).getD s

/-! ### What cannot be sent -/

theorem test_wf_tdm : Instr.wf (.tdmPortFrame 0 ⟨0, 1025, List.replicate 1025 false⟩) = false := by decide +kernel
theorem test_wf_bar0 : Instr.wf (.bar0Request .a ⟨true, 0x1FFFFD, List.replicate 4 (some 0)⟩) = false := by decide
theorem test_wf_bar2 : Instr.wf (.bar2Request .b ⟨false, 0xFFFFFFF, List.replicate 2 (some 0)⟩) = false := by decide
theorem test_wf_write : Instr.wf (.registerWrite { accesses := [] }) = false := by decide
theorem test_wf_write_twice :
    Instr.wf (.registerWrite { accesses := [⟨.hpa, 0x07000000, 4, some 0⟩, ⟨.hpa, 0x07000004, 4, none⟩], meets := true }) = false := by decide
theorem test_wf_latched : Instr.wf (.latchedRead .hpa 0x07000000 3) = false := by decide
theorem test_wf_clear : Instr.wf (.clearOnRead .hpa 0x100000000 4) = false := by decide
theorem test_wf_node : Instr.wf (.nodeTableWrite .se0 0x05000000 5 0) = false := by decide
theorem test_wf_fetch : Instr.wf (.descriptorFetch .a 0 (.slots [[0]])) = false := by decide
theorem test_wf_config : Instr.wf (.configurationRequest .a (.header 2) none) = false := by decide

/-! ### Values that the manual gives -/

/-- The CRC-32C of "123456789" is 0xE3069283, the check value of its parameters. -/
theorem test_crc32c : crc32c [0x31, 0x32, 0x33, 0x34, 0x35, 0x36, 0x37, 0x38, 0x39] = 0xE3069283 := by decide +kernel

/-- R6: the device code. -/
theorem test_sys_id : (up []).reg Reg.SYS_ID = 0x56181100 := by decide

/-- R528, R529: the first try is granted, a second requester's finds the holder, and a release frees. -/
theorem test_sem_try : (after (.semTry .hpb 5) (after (.semTry .hpa 5) (up []))).resp.value = 0x40000001 := by decide
theorem test_sem_rel : (after (.semRel .hpa 5) (after (.semTry .hpa 5) (up []))).holder 5 = none := by decide

/-- Chapter 17, CRC values over "123456789". -/
def nine : List Byte := [0x31, 0x32, 0x33, 0x34, 0x35, 0x36, 0x37, 0x38, 0x39]
theorem test_crc_ccitt : crcResult 16 0 false (nine.foldl (crcByte 16 0x1021 false) 0xFFFF) = 0x29B1 := by decide +kernel
theorem test_crc_16 : crcResult 16 0 true (nine.foldl (crcByte 16 0x8005 true) 0) = 0xBB3D := by decide +kernel
theorem test_crc_8 : crcResult 8 0xFF false (nine.foldl (crcByte 8 0x1D false) 0xFF) = 0x4B := by decide +kernel
theorem test_crc_3 : crcResult 3 0 true (nine.foldl (crcByte 3 3 true) 7) = 6 := by decide +kernel
/-- Chapter 4, accumulator read-out: the ties, and the overflow saturated and wrapped. -/
theorem test_readout_ties : readOut80 (BitVec.ofInt 80 (3 * 2 ^ 31)) 0 true = (2, false) ∧
    readOut80 (BitVec.ofInt 80 (-3 * 2 ^ 31)) 0 false = (0xFFFFFFFF, false) := by decide
theorem test_readout_overflow : readOut80 (BitVec.ofInt 80 (7 * 2 ^ 61)) 0 true = (0x7FFFFFFF, true) ∧
    readOut80 (BitVec.ofInt 80 (7 * 2 ^ 61)) 0 false = (0xE0000000, true) := by decide
/-- R80: K_nom at 48 kHz. -/
theorem test_knom : (up [(Reg.MCK_CTRL, 0x115)]).kNom = 13510798882 := by decide
/-- Chapter 21: the registers at worked addresses. -/
theorem test_addresses : (findReg 0x07070630).map (fun h => (h.name, h.i, h.j)) = some (.PUP_CCNT, 17, 0) ∧
    (findReg 0x070F0940).map (fun h => (h.name, h.i, h.j)) = some (.UART_FID, 2, 16) ∧
    (findReg 0x070201E0).map (fun h => (h.name, h.i, h.j)) = some (.HPx_RING_DB, 1, 3) ∧
    (findReg 0x070D01AC).map (fun h => (h.name, h.i)) = some (.DAC_CH_STAT, 5) ∧
    (findReg 0x0708828C).map (fun h => (h.name, h.i, h.j)) = some (.MOD_PART_CSEL, 40, 3) := by decide +kernel
/-- R280: POLE is taken in an even slot and undefined in an odd one. -/
theorem test_pole : let s := up [(Reg.VAL_PART_OWNER 0, 0x40000000)]
    s.takes .hpa (Reg.MOD_PART_DFMT 0 0) 4 = true ∧ s.refusal .hpa (Reg.MOD_PART_DFMT 0 0) 0x40 = 5 := by decide
/-- Chapter 5, circular and PV512 updates: accesses 1, 3 and 5 of the table. -/
theorem test_circular :
    let a (p : Word) : Arch := { ptr := [(1, p), (9, 0x200), (17, 24), (25, 0xFFFFFFF0)] }
    (a 0x210).modeStep 1 1 8 = some 0x200 ∧ (a 0x208).modeStep 2 1 8 = some 0x210 ∧
    (a 0x200).modeStep 3 1 8 = some 0x1F0 := by decide

/-! ### Witnesses: the queue, memory, registers -/

theorem wit_StepRunsFrontCommand : ({ up [] with pending := [.frameStrobe] } : State).pending = .frameStrobe :: [] := by
  decide
theorem wit_EmptyQueueIdles : State.reset.pending = [] ∧ State.reset.now = none ∧ (up []).pending = [] := by decide
/-- With the clock off, inside an interval, and at its last cycle. -/
theorem wit_EmptyQueueIdles_clock : (up []).now ≠ none ∧ { (up []).mck with st := .off }.st = .off ∧ (up []).mck.st ≠ .off ∧
    (up []).refCyc + 1 < (up []).intervalRef / 2 ^ 32 ∧
    let s : State := { up [] with refCyc := (up []).intervalRef / 2 ^ 32 - 1 }
    s.intervalRef / 2 ^ 32 ≤ s.refCyc + 1 := by decide
theorem wit_EveryCommandRuns : Instr.wf .frameStrobe = true ∧ Instr.wf (.registerWrite { accesses := [], meets := true }) = false := by decide
theorem wit_StepsKeepMemoryCanonical : Memory.wf ({ up [] with pending := [.wakeClearDone] } : State).mem = true ∧
    Memory.wf ((up []).setByte 5 9).mem = true := by decide
theorem wit_RunsNeverStop : State.reset.queueOk = true := by decide
theorem wit_DeviceMemory : Memory.wf State.reset.mem = true ∧ Memory.wf (State.reset.setWord 8 0x01000002).mem = true := by
  decide
theorem wit_RegisterWriteAlone_taken : (up []).takes .hpa (Reg.TMR_CFG 15) 0x20000000 = true ∧
    (findReg (Reg.TMR_CFG 15)).isSome = true := by decide
theorem wit_RegisterWriteAlone_refused : (up []).awake = true ∧ isCsr (Reg.SEM_REL 63) = true ∧
    Reg.SEM_REL 63 % 4 = 0 ∧ (up []).refusal .hpa (Reg.SEM_REL 63) 1 = 1 ∧
    (findReg (Reg.SEM_REL 63)).map (·.name) = some .SEM_REL := by decide
/-- An earlier write of host B waits; host B in D3hot; two accesses that meet. -/
theorem wit_RegisterWriteAlone_waits : let s : State := { up [] with stalled := [(.b, true, ⟨true, 0, [some 0]⟩)] }
    s.awake = true ∧ isCsr (Reg.TMR_CFG 15) = true ∧ s.portTakes .b = true ∧ s.heldBack .b = true ∧
    (((up []).setPort 1 { link := .l0, d3hot := true }).port (Port.ix .b)).d3hot = true := by decide
theorem wit_RegisterWriteAlone_meets :
    let l : List RegAccess := [⟨.hpa, Reg.TMR_CFG 15, 4, some 0⟩, ⟨.se1, Reg.TMR_CFG 15, 4, none⟩]
    l ≠ [] ∧ slotOk l = true ∧ ∀ w ∈ l, (up []).reaches w = true := by decide
/-- R505, R506: a write that stands at the arbiter meets host B's in one slot; each stores its word, host A's first, and the
two are a collision. -/
theorem test_meeting : let s := after (.registerWrite { accesses := [⟨.hpa, Reg.TMR_CFG 15, 4, some 0x20000000⟩], meets := true }) (up [])
    let t := after (.registerWrite { accesses := [⟨.hpb, Reg.TMR_CFG 15, 4, some 0x40000000⟩] }) s
    s.posted.length = 1 ∧ s.reg (Reg.TMR_CFG 15) = 0 ∧ t.posted = [] ∧ t.arbLast = some .hpa := by decide +kernel
theorem wit_RefusalIsRecorded : Port.req .b = .hpb ∧ (up []).rb (Reg.HPx_AFLT 1) 31 = false ∧
    (up [(Reg.HPx_AFLT 1, 0x84000000)]).rb (Reg.HPx_AFLT 1) 31 = true := by decide
/-- The lower and the upper word of EVT_NOW, and a counter. -/
theorem wit_ReadEffects : (up []).awake = true ∧
    (findReg Reg.EVT_NOW).map (fun h => (h.latches, h.upper, readCause .se1 h, (up []).readable h)) = some (true, false, 0, true) ∧
    (findReg Reg.EVT_NOW).map (fun h => hiddenFrom .se1 h Reg.EVT_NOW) = some false ∧
    (findReg (Reg.EVT_NOW + 4)).map (fun h => (h.latches, h.upper, readCause .se1 h)) = some (true, true, 0) ∧
    (findReg (Reg.MCK_CNT 3)).map (fun h => (decide (h.bitsOf .rc ≠ 0), h.wide, readCause .hpa h)) = some (true, false, 0) := by
  decide

/-! ### Witnesses: semaphores, timers, check units -/

/-- Host A holds semaphore 5. -/
def held : State := after (.semTry .hpa 5) (up [])

theorem wit_Semaphores_held : held.awake = true ∧ held.ready = true ∧ held.holder 5 = some .hpa ∧
    held.inWriteSet none (Reg.SEM_REL 5) = false := by decide
theorem wit_Semaphores_order : let s := held.setReg Reg.SEM_CTRL 1
    s.holder 4 = none ∧ (s.rb Reg.SEM_CTRL 0 && s.holdsAbove .hpa 4) = true := by decide
theorem wit_Semaphores_free : held.holder 63 = none ∧ (held.rb Reg.SEM_CTRL 0 && held.holdsAbove .hpb 63) = false ∧
    held.holder 63 ≠ some .hpb := by decide

/-- Timer 15 runs as a REF timer for host B. -/
def refTimer : State := up [(Reg.TMR_CFG 15, 0x50000000), (Reg.TMR_STAT 15, 2), (Reg.TMR_COUNT 15, 7)]

theorem wit_TimerCommands_count : (up [(Reg.TMR_CFG 0, 0x20000000)]).takes .hpa (Reg.TMR_COUNT 0) 0 = true := by decide
theorem wit_TimerCommands_cfg : (up [(Reg.TMR_CFG 0, 0x20000000)]).takes .hpa (Reg.TMR_CFG 0) 0 = true := by decide
theorem wit_TimerCommands_running : let s := up [(Reg.TMR_CFG 0, 0x20000000), (Reg.TMR_STAT 0, 2)]
    s.tmrRun 0 = true ∧ (s.setRf (Reg.TMR_STAT 0) 1 1 0).takes .hpa (Reg.TMR_CFG 0) 0 = true := by decide
theorem wit_TimerCommands_expiry : tget 0 refTimer.refEnd 15 ≤ refTimer.refAll ∧ refTimer.awake = true ∧ refTimer.tmrRun 15 = true ∧ refTimer.tmrRef 15 = true ∧
    refTimer.rf (Reg.TMR_CFG 15) 31 29 = 2 := by decide
theorem wit_TimerCommands_hostA : let s := refTimer.setReg (Reg.TMR_CFG 15) 0x30000000
    s.tmrRun 15 = true ∧ s.tmrRef 15 = true ∧ s.rf (Reg.TMR_CFG 15) 31 29 = 1 := by decide
theorem wit_TimerCommands_read : let s := { refTimer with refEnd := [(15, 9)], refAll := 4 }
    s.arrives .hpb (Reg.TMR_COUNT 15) = true ∧ s.ready = true ∧ (tget 0 s.refEnd 15 ≤ s.refAll) = False ∧
    (after (.latchedRead .hpb (Reg.TMR_COUNT 15) 4) s).resp.value = 5 := by decide
theorem wit_TimerCommands_rest : ((up []).awake && (up []).tmrRun 3 && (up []).tmrRef 3) = false := by decide

/-- Unit 3 belongs to host A, its alive counter of 4 bits expects 0 and its check register has been started. -/
def chkUp (stat : Word) : State :=
  (up [(Reg.CHK_CFG 3, 0x20200003), (Reg.CHK_ACFG 3, 0x80040000), (Reg.CHK_ASTAT 3, stat)]).setChk 3
    { width := 32, poly := 0x1EDC6F41 }

theorem wit_CheckUnits_start : (chkUp 0).takes .hpa (Reg.CHK_CTRL 3) 1 = true ∧
    (chkUp 0).takes .hpa (Reg.CHK_CTRL 3) 2 = true := by decide
theorem wit_CheckUnits_din : (chkUp 0).takes .hpa (Reg.CHK_DIN 3 3) 5 = true ∧ ((chkUp 0).chk 3).width ≠ 0 := by decide
theorem wit_CheckUnits_unstarted : let s := up [(Reg.CHK_CFG 0, 0x20200003)]
    s.takes .hpa (Reg.CHK_DIN 0 0) 5 = true ∧ (s.chk 0).width = 0 := by decide
theorem wit_CheckUnits_ain : (chkUp 0).takes .hpa (Reg.CHK_AIN 3) 9 = true ∧ bit ((chkUp 0).reg (Reg.CHK_ACFG 3)) 31 = true ∧
    (chkUp 0).rb (Reg.CHK_ASTAT 3) 29 = false := by decide
theorem wit_CheckUnits_off : let s := up [(Reg.CHK_CFG 0, 0x20200003)]
    s.takes .hpa (Reg.CHK_AIN 0) 9 = true ∧ bit (s.reg (Reg.CHK_ACFG 0)) 31 = false := by decide
/-- Synchronised on 0: 0 is expected, 15 repeats, 1 skips. -/
theorem wit_CheckUnits_sync : let s := chkUp 0x20000000
    s.takes .hpa (Reg.CHK_AIN 3) 15 = true ∧ s.rb (Reg.CHK_ASTAT 3) 29 = true ∧ s.rf (Reg.CHK_ASTAT 3) 15 0 = 0 ∧
    2 ^ fld (s.reg (Reg.CHK_ACFG 3)) 20 16 = 16 ∧ fld (s.reg (Reg.CHK_ACFG 3)) 4 0 = 0 := by decide
theorem wit_CheckUnits_cfg : (up []).takes .hpa (Reg.CHK_CFG 3) 0x20200003 = true ∧
    (up [(Reg.CHK_CFG 3, 0x20200003)]).takes .hpa (Reg.CHK_CFG 3) 0x00200000 = true := by decide

/-! ### Witnesses: serial ports -/

/-- UART 2 is enabled for host A with 8 data bits; `x` is its queues and what it does. -/
def uartUp (cfg : Word) (x : Uart) : State := (up [(Reg.UART_CFG 2, cfg), (Reg.UART_IEN 2, 8)]).setUart 2 x

theorem wit_UartTransmit_idle : (uartUp 0x8C800000 {}).takes .hpa (Reg.UART_TXD 2) 0x41 = true ∧
    (uartUp 0x8C800000 {}).uartOn 2 = true ∧ ((uartUp 0x8C800000 {}).uart 2).cur = none ∧
    ((uartUp 0x8C800000 {}).uart 2).txq = [] := by decide
theorem wit_UartTransmit_busy : let s := uartUp 0x8C800000 { cur := some 1 }
    s.takes .hpa (Reg.UART_TXD 2) 0x41 = true ∧ (s.uartOn 2 && (s.uart 2).cur.isNone) = false ∧
    s.takes .hpa (Reg.UART_CTRL 2) 2 = true := by decide
theorem wit_UartTransmit_next : let s := uartUp 0x8C800000 { cur := some 1, txq := [2] }
    s.awake = true ∧ (s.uart 2).cur.isSome = true ∧ s.uartOn 2 = true ∧ (s.uart 2).txq = 2 :: [] := by decide
theorem wit_UartTransmit_last : let s := uartUp 0x8C800000 { cur := some 1 }
    (s.uart 2).cur.isSome = true ∧ (s.uart 2).txq = [] ∧ s.rb (Reg.UART_IEN 2) 3 = true ∧ s.uartDest 2 = 3 := by decide
theorem wit_UartTransmit_lastB : let s := uartUp 0x90800000 { cur := some 1 }
    (s.uart 2).cur.isSome = true ∧ s.rb (Reg.UART_IEN 2) 3 = true ∧ s.uartDest 2 = 4 := by decide
/-- The byte of a frame that was given up; a character beside a frame that is being sent. -/
theorem wit_UartTransmit_dropped : let s := uartUp 0x0C800000 { frame := some { stage := .dropped } }
    s.awake = true ∧ (s.uart 2).cur = none ∧
    ((s.uart 2).frame.map fun f => decide (f.stage = .dropped)).getD false = true ∧ (s.uart 2).txq = [] := by decide
theorem wit_UartTransmit_none : ((up []).awake && ((up []).uart 0).cur.isSome) = false := by decide

/-- A character of 8 data bits as the sampler sees it: a low start bit, the data, the stop bit; all samples agree. -/
def charOf (data : Nat) (stop : Bool) : RxChar :=
  let x : BitVec 12 := BitVec.ofNat 12 (2 * data + if stop then 0x200 else 0)
  ⟨x, x, x⟩

/-- The character 0x41. -/
def chA : RxChar := charOf 0x41 true

/-- The same, one sample of the first data bit low. -/
def chNoisy : RxChar := { chA with s8 := 0x280 }

/-- R544, R545: the majority decides, and samples that disagree are noise. -/
theorem test_majority : (up [(Reg.UART_CFG 2, 0x8C800000)]).charEntry 2 chA = 0x80000041 ∧
    (up [(Reg.UART_CFG 2, 0x8C800000)]).charEntry 2 chNoisy = 0x80010041 ∧
    (up [(Reg.UART_CFG 2, 0x8C800000)]).charEntry 2 (charOf 0 false) = 0x80080000 := by decide
/-- R541: 0x41 with even parity and two stop bits on the line. -/
theorem test_line : charLine 8 1 2 0x41 =
    [(false, 16), (true, 16), (false, 16), (false, 16), (false, 16), (false, 16), (false, 16), (true, 16), (false, 16),
     (false, 16), (true, 32)] := by decide

theorem wit_UartReceive_off : (uartUp 0x0C800000 {}).uartOn 2 = false ∧
    ((uartUp 0x8C808000 { abWait := true }).uart 2).abWait = true := by decide
theorem wit_UartReceive_room : let s := uartUp 0x8C800000 { rxq := List.replicate 15 0 }
    s.awake = true ∧ s.uartOn 2 = true ∧ (s.uart 2).abWait = false ∧ s.uartMode 2 = 0 ∧ chA.startLow = true ∧
    (s.uart 2).rxq.length < 16 := by decide
theorem wit_UartReceive_full : let s := uartUp 0x8C800000 { rxq := List.replicate 16 0 }
    s.uartOn 2 = true ∧ s.uartMode 2 = 0 ∧ 16 ≤ (s.uart 2).rxq.length ∧
    fld (s.charEntry 2 (charOf 0x41 false)) 19 16 ≠ 0 := by decide
theorem wit_UartReceive_glitch : (uartUp 0x8C800000 {}).uartOn 2 = true ∧ ({ chA with s7 := 0x283, s9 := 0x283 } : RxChar).startLow = false := by
  decide
theorem wit_UartReceive_flags : let s := uartUp 0x8C900000 {}
    chA.startLow = true ∧ s.rf (Reg.UART_CFG 2) 19 18 = 0 ∧ 5 ≤ s.rf (Reg.UART_CFG 2) 23 20 ∧
    s.rf (Reg.UART_CFG 2) 23 20 ≤ 9 ∧ (charOf 0x141 false).value 10 = false ∧ ({ chA with s7 := 0x683, s8 := 0x682 } : RxChar).value 10 = true := by
  decide
theorem wit_UartEntriesTaken_dest : let s := uartUp 0x8C800000 { rxq := [1, 2] }
    s.ready = true ∧ destReq (s.uartDest 2) = some .hpa ∧ (s.uart 2).rxq = 1 :: [2] ∧
    destReq (s.uartDest 2) ≠ some .hpb ∧ s.takes .hpa (Reg.UART_CTRL 2) 1 = true := by decide
/-- UART 0 delivers to EVT: an entry with a flag, and one without. -/
theorem wit_UartEntriesTaken_evt :
    let s (e : Word) : State := (up [(Reg.UART_CFG 0, 0x80800000), (Reg.EVT_CTRL, 0x3005)]).setUart 0 { rxq := [e] }
    (s 0x80040041).awake = true ∧ (s 0x80040041).uartDest 0 = 0 ∧ (s 0x80040041).evtRoom 8 1 = true ∧
    ((s 0x80040041).uart 0).rxq = 0x80040041 :: [] ∧ fld 0x80040041 20 16 ≠ 0 ∧ fld 0x80000041 20 16 = 0 ∧
    (({} : MidiParser).parse 0 0x41).1 = .none := by decide
theorem wit_UartEntriesTaken_none : ((up []).uart 0).rxq = [] := by decide
theorem wit_UartEnableAndArm_on : let s := uartUp 0x0C808000 {}
    s.takes .hpa (Reg.UART_CFG 2) (0x0C808000 ||| 0x80000000) = true ∧ s.uartOn 2 = false ∧ (s.uart 2).txq = [] := by decide
theorem wit_UartEnableAndArm_off : let s := uartUp 0x8C808000 { cur := some 1 }
    s.takes .hpa (Reg.UART_CFG 2) (0x8C808000 &&& 0x7FFFFFFF) = true ∧ s.uartOn 2 = true ∧ (s.uart 2).cur.isSome = true := by
  decide
theorem wit_UartEnableAndArm_start : let s := uartUp 0x0C808000 { txq := [5] }
    s.takes .hpa (Reg.UART_CFG 2) (0x0C808000 ||| 0x80000000) = true ∧ (s.uart 2).sends = false ∧ (s.uart 2).txq = 5 :: [] ∧
    (uartUp 0x0C808000 {}).takes .hpa (Reg.UART_CFG 2) (0x0C808000 &&& 0x7FFFFFFF) = true := by decide
theorem wit_UartEnableAndArm_frame :
    let s (st : LinStage) := uartUp 0xAC800000 { frame := some { stage := st } }
    (s .header).takes .hpa (Reg.UART_CFG 2) (0x2C800000 &&& 0x7FFFFFFF) = true ∧ (s .header).uartOn 2 = true ∧
    ({ stage := .header } : LinFrame).onLine = true ∧ ({ stage := .subscribe } : LinFrame).onLine = false := by decide
theorem wit_UartEnableAndArm_arm : let s := uartUp 0x8C808000 {}
    s.takes .hpa (Reg.UART_CTRL 2) 4 = true ∧ (decide (s.uartMode 2 = 0) && s.rb (Reg.UART_CFG 2) 15) = true := by decide
theorem wit_UartEnableAndArm_unarmed : let s := uartUp 0x8C800000 {}
    s.takes .hpa (Reg.UART_CTRL 2) 4 = true ∧ (decide (s.uartMode 2 = 0) && s.rb (Reg.UART_CFG 2) 15) = false := by decide
/-- Four equal intervals of 128 give the least divider, 64; 16, 16, 16, 464 are no sync character. -/
theorem wit_BaudMeasured : let s := uartUp 0x8C808000 { abWait := true }
    s.awake = true ∧ s.uartOn 2 = true ∧ (s.uart 2).abWait = true ∧
    (∀ i ∈ [128, 128, 128, 128], 64 * i ≤ 17 * 512 ∧ 15 * 512 ≤ 64 * i) ∧ 64 ≤ (512 + 4) / 8 ∧
    ¬(∀ i ∈ [16, 16, 16, 464], 64 * i ≤ 17 * 512 ∧ 15 * 512 ≤ 64 * i) := by decide

/-- UART 2 with a LIN frame in progress. -/
def linUp (mode : Word) (f : LinFrame) : State := uartUp (0x8C800000 ||| mode) { frame := some f }

theorem wit_BaudMeasured_sync : let s := linUp 0x40000000 { stage := .sync }
    (s.uart 2).frame = some { stage := .sync } ∧ s.awake = true := by decide
theorem wit_LinCommander_go : (uartUp 0xAC800000 {}).takes .hpa (Reg.UART_FHDR 2) 0x8000003F = true := by decide
theorem wit_LinCommander_sent : let s := (linUp 0x20000000 { stage := .header, pid := 0x41 }).setReg (Reg.UART_FID 2 1) 0x60000007
    (s.uart 2).frame = some { stage := .header, pid := 0x41 } ∧ (s.uart 2).rxq.length < 16 ∧
    fld (s.charEntry 2 chA ||| 0x00200000) 7 0 = 0x41 ∧ fld (s.charEntry 2 chA ||| 0x00200000) 19 16 = 0 ∧
    fld (s.reg (Reg.UART_FID 2 1)) 31 30 = 1 := by decide
/-- The header of PID 0x41 as it is read back, well and with a break too short. -/
def echo (brk : Nat) : HeaderEcho :=
  let x : BitVec 22 := BitVec.ofNat 22 (2 ^ 22 - 2 ^ brk)
  ⟨x, x, x, charOf 0x55 true, charOf 0x41 true⟩
theorem wit_LinCommander_echo : (echo 13).breakOk 13 1 = true ∧ (echo 12).breakOk 13 1 = false ∧
    (echo 13).sync.echoes 0x55 = true ∧ (echo 13).pid.echoes 0x41 = true ∧ (echo 13).pid.echoes 0xC1 = false := by decide
theorem wit_LinCommander_wrong : let s := linUp 0x20000000 { stage := .header, pid := 0xC1 }
    fld (s.charEntry 2 chA ||| 0x00200000) 7 0 ≠ 0xC1 := by decide
theorem wit_LinResponder_break : let s := linUp 0x40000000 { stage := .sync }
    s.awake = true ∧ s.uartOn 2 = true ∧ s.uartMode 2 = 2 ∧ (uartUp 0xCC800000 {}).uartMode 2 = 2 ∧
    ((uartUp 0xCC800000 {}).uart 2).frame = none ∧
    ((uartUp 0x8C800000 {}).uartOn 2 && decide ((uartUp 0x8C800000 {}).uartMode 2 = 2)) = false := by decide
/-- 0xC1 is the protected identifier of ID 1, 0x41 is not. -/
theorem wit_LinResponder_pid : let s := linUp 0x40000000 { stage := .pid }
    (s.uart 2).frame = some { stage := .pid } ∧ pidOf 1 = 0xC1 ∧
    fld (s.charEntry 2 (charOf 0xC1 true) ||| 0x00200000) 7 0 = 0xC1 ∧
    fld (s.charEntry 2 chA ||| 0x00200000) 19 16 = 0 ∧ fld (s.reg (Reg.UART_FID 2 1)) 31 30 = 0 ∧
    fld ((s.setReg (Reg.UART_FID 2 1) 0x80000007).reg (Reg.UART_FID 2 1)) 31 30 = 2 := by decide
theorem wit_LinResponder_timeout : let s := linUp 0x40000000 { stage := .subscribe, len := 8 }
    (s.uart 2).frame = some { stage := .subscribe, len := 8 } := by decide
theorem wit_LinFrameEnds : let s := linUp 0x40000000 { stage := .subscribe, status := 2, spent := true }
    s.awake = true ∧ (s.uart 2).frame = some { stage := .subscribe, status := 2, spent := true } ∧ (2 : Nat) < 256 ∧
    (s.uart 2).rxq.length < 16 := by decide

/-! ### Witnesses: converters -/

/-- Group 0 takes strobes from DAC_STROBE and plays audio, group 1 from DAC_LOAD; host A owns both. -/
def dacUp (l : List (Nat × Word)) : State :=
  { up (l ++ [(Reg.DAC_CTRL, 1), (Reg.DAC_GCFG 0, 0x40000010), (Reg.DAC_GCFG 1, 0x40000020)] ++
      (List.range 8).map fun c => (Reg.DAC_CH_CFG c, 0x94C0AF32)) with strobes := 100 }

theorem wit_DacLoadStrobes : (dacUp []).takes .hpa Reg.DAC_STROBE (BitVec.ofNat 32 (2 * b2n false + b2n true)) = true ∧
    (dacUp []).awake = true ∧ (dacUp []).variant = .f ∧ State.reset.awake = false := by decide
theorem wit_DacClearAndMute_clr : (dacUp []).variant = .f ∧ (dacUp []).clrSeen ≠ false ∧ (dacUp []).clrSeen = true ∧
    (dacUp []).awake = true ∧ { dacUp [] with clrSeen := false }.clrSeen ≠ true ∧
    State.reset.awake = false ∧ State.reset.phase ≠ .waitRecords ∧ State.reset.variant = .f := by decide
/-- The pin stands low as start-up's step 3 begins, and the media clock is off: a falling edge. -/
theorem test_clr_before_run : let s : State := { State.reset with phase := .waitRecords }
    (after (.dacClrChange false) s).reg (Reg.DAC_CNT 3) = 1 ∧ s.clrSeen ≠ false ∧ s.mck.st = .off := by decide +kernel
theorem wit_DacClearAndMute_mute : let s : State := { dacUp [] with mute := some (192, 192) }
    s.mute = some (192, 192) ∧ s.rb Reg.DAC_CTRL 0 = true ∧ ({ s with mute := some (191, 192) } : State).mute ≠ some (191, 191) ∧
    (dacUp []).mute = none := by decide
theorem wit_DacSupervision_release : let s := (dacUp []).setDacCh 7 { hold := true }
    s.awake = true ∧ (s.dacCh 7).hold = true ∧ (s.dacCh 7).settle = 0 ∧ s.col.readoutInvalid = false ∧ 7 < s.dacChannels ∧
    ((dacUp []).dacCh 7).hold = false := by decide
/-- Channel 0 is supervised, its action a latched force. -/
theorem wit_DacSupervision_fault : let s := dacUp []
    s.clocked = true ∧ s.now ≠ none ∧ 0 < s.dacChannels ∧ s.rb (Reg.DAC_CH_CFG 0) 28 = true ∧ s.dacSrc 0 ≠ 0 ∧ s.dacSrc 0 ≠ 6 ∧
    s.rf (Reg.DAC_CH_CFG 0) 27 26 = 1 ∧ s.rf (Reg.DAC_CH_CFG 0) 25 22 = 3 ∧ State.reset.clocked = false := by decide
/-- R442: with DEB = 3 the fourth strobe in a row qualifies, the third does not. -/
theorem test_debounce : let s (n : Nat) := (dacUp []).setDacCh 0 { cmpAt := some 99, openRun := n }
    (after (.faultQualify 0 true false) (s 2)).rb (Reg.DAC_CH_STAT 0) 1 = false ∧
    (after (.faultQualify 0 true false) (s 3)).rb (Reg.DAC_CH_STAT 0) 1 = true := by decide +kernel
theorem wit_DacSupervision_clear : (dacUp [(Reg.DAC_CH_STAT 0, 8)]).takes .hpa (Reg.DAC_CH_STAT 0) 8 = true ∧
    (dacUp [(Reg.DAC_CH_STAT 0, 8)]).rf (Reg.DAC_CH_STAT 0) 5 4 = 0 := by decide

/-- A comparator read once more at the same strobe, and at the strobe after it. -/
theorem wit_DacSupervision_again : let s (f : Nat) := (dacUp []).setDacCh 0 { cmpAt := some f, openRun := 2 }
    (s 100).clocked = true ∧ ((s 100).dacCh 0).cmpAt = some (s 100).strobes ∧ ((s 99).dacCh 0).cmpAt ≠ some (s 99).strobes ∧
    ((s 99).dacCh 0).cmpAt = some ((s 99).strobes - 1) := by decide

/-! ### Witnesses: transactions -/

/-- Transaction i in a state. -/
def txnUp (i : Nat) (x : Txn) : State := (up []).setTxn i x

theorem wit_TransactionTriggers_open : (up []).takes .hpb (Reg.TXN_CTRL 1) 1 = true := by decide
theorem wit_TransactionTriggers_commit : let s := txnUp 3 { st := .opened, ovf := true }
    s.takes .se1 (Reg.TXN_CTRL 3) 2 = true ∧ (s.txn 3).ovf = true ∧ s.takes .se1 (Reg.TXN_CTRL 3) 4 = true := by decide
theorem wit_TransactionTriggers_abort : let s := (txnUp 0 { st := .checking, ring := some 3 }).setRing 0 3 { busy := some (7, []) }
    s.takes .hpa (Reg.TXN_CTRL 0) 4 = true ∧ (s.txn 0).ring = some 3 ∧ (s.ring 0 3).busy = some (7, []) := by decide
theorem wit_TransactionStaging_addr : let s := txnUp 0 { st := .opened }
    s.takes .hpa (Reg.TXN_SDATA 0 + 4) 0x07110000 = true ∧ s.takes .hpa (Reg.TXN_SDATA 0) 9 = true ∧ s.ready = true ∧
    Req.ix .hpa = 0 ∧ s.inWriteSet none (Reg.TXN_SDATA 0 + 4) = false := by decide
theorem wit_TransactionStaging_full :
    (txnUp 0 { st := .opened, entries := List.replicate 4096 (0x07110000, 0) }).stageCause 0 0x07110004 = 5 := by
  decide +kernel
theorem wit_TransactionChecked : let s := txnUp 1 { st := .checking }
    (s.txn 1).st = .checking ∧ (s.txn 1).found.1 = 0 ∧ (s.txn 1).ring = none ∧ ((up []).txn 1).st ≠ .checking := by decide
theorem wit_TransactionChecked_failed : let s := txnUp 1 { st := .checking, found := (2, 7) }
    (s.txn 1).st = .checking ∧ (s.txn 1).found.1 ≠ 0 ∧ (s.txn 1).ring = none := by decide
theorem wit_TransactionChecked_ring : let s := (txnUp 0 { st := .checking, ring := some 3 }).setRing 0 3 { busy := some (7, []) }
    (s.txn 0).st = .checking ∧ (s.txn 0).ring = some 3 ∧ (s.ring 0 3).busy = some (7, []) := by decide

/-! ### Witnesses: ring pairs -/

/-- Port A is in L0 with Bus Master Enable, its ring 3 enabled with 16 slots. -/
def ringUp (l : List (Nat × Word)) (g : Ring) : State :=
  ((up (l ++ [(Reg.HPx_RING_CFG 0 3, 0x80000004), (Reg.HPx_CPL_BASE 0 3, 0x1000), (Reg.EVT_CTRL, 0x3005)])).setPort 0
    { link := .l0, released := true, busMaster := true }).setRing 0 3 g

/-- A descriptor: CODE, COUNT, the alive value and the bytes from 8 on, with its CRC. -/
def desc (alive code count : Nat) (body : List Byte) : List Byte :=
  let b := toLE alive 2 ++ toLE code 1 ++ toLE count 1 ++ (toLE 0 4 ++ body ++ List.replicate 52 0).take 56
  b ++ toLE (crc32c b).toNat 4

/-- Ring 3 with one fetched descriptor in slot 2. -/
def ringWith (code count : Nat) (body : List Byte) : State := ringUp [] { fetched := [(2, desc 0 code count body)] }

theorem wit_HostDoorbells_index : (ringUp [] {}).takes .hpa (Reg.HPx_RING_DB 0 3) 15 = true ∧
    fld 15 11 0 < 2 ^ (ringUp [] {}).rf (Reg.HPx_RING_CFG 0 3) 3 0 := by decide
theorem wit_HostDoorbells_outside : let s := ringUp [] {}
    s.takes .hpa (Reg.HPx_RING_DB 0 3) 16 = true ∧ 2 ^ s.rf (Reg.HPx_RING_CFG 0 3) 3 0 ≤ fld 16 11 0 ∧
    s.rb (Reg.HPx_RING_STAT 0 3) 31 = false ∧ (s.setReg (Reg.HPx_RING_STAT 0 3) 0x80000001).rb (Reg.HPx_RING_STAT 0 3) 31 = true := by
  decide
theorem wit_HostDoorbells_completion : (ringUp [] {}).takes .hpa (Reg.HPx_CPL_DB 0 3) 0 = true ∧
    (ringUp [] {}).takes .se1 (Reg.HPx_SEDB 0) (onebit 1) = true ∧ seReq 1 = .se1 := by decide
theorem wit_RingEnables : (up []).takes .hpa (Reg.HPx_RING_CFG 0 3) (ringCfg true 12) = true ∧
    (up []).rb (Reg.HPx_RING_CFG 0 3) 31 = false ∧ (ringUp [] {}).takes .hpa (Reg.HPx_RING_CFG 0 3) (ringCfg true 4) = true ∧
    (ringUp [] {}).takes .hpa (Reg.HPx_RING_CFG 0 3) (ringCfg false 4) = true ∧
    (up []).takes .hpb (Reg.HPx_IRQ_EN 1) 0x3FFFFFF = true := by decide
theorem wit_RingTransfers_fetch : let s := ringUp [(Reg.HPx_RING_DB 0 3, 2)] {}
    (FetchResult.slots [List.replicate 64 0, List.replicate 64 0]).ok = true ∧
    (s.ringLive 0 3 && s.portSends 0 && decide (0 < s.fetchRoom 0 3)) = true ∧ s.fetchRoom 0 3 = 2 ∧
    ((ringUp [] {}).ringLive 0 3 && (ringUp [] {}).portSends 0 && decide (0 < (ringUp [] {}).fetchRoom 0 3)) = false := by
  decide
theorem wit_RingTransfers_completion : let s := ringUp [] { done := [List.replicate 64 0] }
    (s.ring 0 3).done = List.replicate 64 0 :: [] ∧ s.portSends 0 = true ∧ 0 < s.cplFree 0 3 ∧
    ((ringUp [] {}).ring 0 3).done = [] := by decide
theorem wit_RingDescriptorChecked_crc : let s := ringUp [] { fetched := [(2, List.replicate 64 1)] }
    s.ringTakes 0 3 = true ∧ leField (List.replicate 64 1) 60 4 ≠ (crc32c ((List.replicate 64 1).take 60)).toNat := by
  decide +kernel
theorem wit_RingDescriptorChecked_bad : (ringWith 0 1 []).ringHolds 0 3 2 (desc 0 0 1 []) [] = true ∧
    codeOf (desc 0 0 1 []) = 0 ∧ leField (desc 0 0 1 []) 0 2 = 0 ∧ badCmd (desc 0 0 1 []) 0 0 0 = true := by decide +kernel
theorem wit_RingDescriptorChecked_repeat : leField (desc 65535 0x31 0 []) 0 2 = (0 + 65535) % 65536 ∧
    (ringUp [] { fetched := [(2, desc 65535 0x31 0 [])] }).ringHolds 0 3 2 (desc 65535 0x31 0 []) [] = true := by decide +kernel
theorem wit_RingDescriptorChecked_skip : leField (desc 1 0x31 0 []) 0 2 ≠ (0 + 65535) % 65536 ∧
    leField (desc 1 0x31 0 []) 0 2 ≠ 0 ∧ codeOf (desc 1 0x31 0 []) ∈ codes ∧ codeOf (desc 1 0x31 0 []) ≠ 0x30 ∧
    (ringUp [] { fetched := [(2, desc 1 0x31 0 [])] }).ringHolds 0 3 2 (desc 1 0x31 0 []) [] = true := by decide +kernel
theorem wit_RingEventCommands_nop : (ringWith 0 0 []).ringRuns 0 3 2 0 (desc 0 0 0 []) [] = true ∧
    (ringWith 0x77 0 []).ringRuns 0 3 2 0x77 (desc 0 0x77 0 []) [] = true ∧ 0x77 ∉ codes := by decide +kernel
theorem wit_RingEventCommands_events : let s := ringWith 1 3 []
    s.ringRuns 0 3 2 1 (desc 0 1 3 []) [] = true ∧ countOf (desc 0 1 3 []) = 3 ∧ restZero (desc 0 1 3 []) 48 = true ∧
    (s.ringTaken 0 3 2 [] 1).evtRoom 3 3 = true ∧ ((s.setReg Reg.EVT_CTRL 0).ringTaken 0 3 2 [] 1).evtRoom 3 3 = false := by
  decide +kernel
/-- One 32-bit packet; and the first half of a packet of two words. -/
theorem wit_RingEventCommands_umps : let d := desc 0 2 1 []
    (ringWith 2 1 []).ringRuns 0 3 2 2 d [] = true ∧ countOf d = 1 ∧ restZero d 12 = true ∧
    (umpPackets 1 ((List.range 1).map (wordAt d 0x10))).isSome = true ∧
    ((ringWith 2 1 []).ringTaken 0 3 2 [] 1).evtRoom 3 1 = true ∧ umpPackets 1 [0x40000000] = none := by decide +kernel
theorem wit_RingWriteCommands_write32 : let d := desc 0 0x10 6 []
    (ringWith 0x10 6 []).ringRuns 0 3 2 0x10 d [] = true ∧ countOf d = 6 ∧ restZero d 48 = true ∧
    ((ringWith 0x10 6 []).ringTaken 0 3 2 [] 1).stalls .hpa 0 = false ∧
    (((ringWith 0x10 6 []).setReg Reg.WS_STAT 0x10000).ringTaken 0 3 2 [] 1).stalls .hpa 0 = true := by decide +kernel
theorem wit_RingWriteCommands_stage : let d := desc 0 0x20 1 []
    (ringWith 0x20 1 []).ringRuns 0 3 2 0x20 d [] = true ∧ restZero d 8 = true ∧
    ((ringWith 0x20 1 []).txn 0).st ≠ .opened ∧ (((ringWith 0x20 1 []).setTxn 0 { st := .opened }).txn 0).st = .opened := by
  decide +kernel
theorem wit_RingWriteCommands_commit : let d := desc 0 0x21 0 []
    (ringWith 0x21 0 []).ringRuns 0 3 2 0x21 d [] = true ∧ countOf d = 0 ∧ restZero d 8 = true ∧
    (ringWith 0x22 0 []).ringRuns 0 3 2 0x22 (desc 0 0x22 0 []) [] = true ∧ restZero (desc 0 0x22 0 []) 0 = true ∧
    TxnState.pending.holds = true ∧ TxnState.idle.holds = false := by decide +kernel
/-- A TXN_ABORT on ring 3 while a TXN_COMMIT of ring 2 waits for its check. -/
theorem wit_RingWriteCommands_abort : let d := desc 0 0x22 0 []
    let s := ((ringWith 0x22 0 []).setRing 0 2 { busy := some (7, []) }).setTxn 0 { st := .checking, ring := some 2 }
    s.ringRuns 0 3 2 0x22 d [] = true ∧ (s.txn 0).st.holds = true ∧ (s.txn 0).ring = some 2 ∧
    (s.ring 0 2).busy = some (7, []) := by decide +kernel
theorem wit_RingWriteCommands_waits : let d := desc 0 0x10 1 (toLE 0x05000000 4)
    let s := (ringWith 0x10 1 (toLE 0x05000000 4)).setReg Reg.WS_STAT 0x10000
    let t := s.ringTaken 0 3 2 [] 1
    s.ringRuns 0 3 2 0x10 d [] = true ∧ countOf d = 1 ∧ restZero d 8 = true ∧
    (List.range 1).any (fun i => tableWord (leField d (8 + 8 * i) 4) && t.stalls .hpa (leField d (8 + 8 * i) 4)) = true := by
  decide +kernel
/-- PROG_LOAD of program 1,023 from the start of bank 0. -/
theorem wit_RingProgramCommands_load : let d := desc 0 0x30 0 [0xFF, 0x03]
    let s := ringWith 0x30 0 [0xFF, 0x03]
    s.ringRuns 0 3 2 0x30 d [] = true ∧ countOf d = 0 ∧ restZero d 8 = true ∧ leField d 10 2 = 0 ∧ leField d 12 4 % 8 = 0 ∧
    (s.ringTaken 0 3 2 [] 1).stalls .hpa 0 = false ∧ leField d 8 2 = 1023 ∧ s.prog 1023 = none ∧ s.wsOwner 0 ≠ 1 := by
  decide +kernel
theorem wit_RingProgramCommands_remove : let d := desc 0 0x31 0 [5]
    let s := { ringWith 0x31 0 [5] with progs := [(5, { base := 0, len := 4, cost := 1, kind := 1, mem := 0, trap := 0 })] }
    s.ringRuns 0 3 2 0x31 d [] = true ∧ restZero d 2 = true ∧ leField d 8 2 = 5 ∧ (s.prog 5).isSome = true ∧
    (s.ringTaken 0 3 2 [] 1).progNamed 5 = false ∧ (ringWith 0x31 0 [5]).prog 5 = none ∧
    ((s.setReg (Reg.VAL_PART_PROG 0) 0x80000005).ringTaken 0 3 2 [] 1).progNamed 5 = true := by decide +kernel

/-! ### Witnesses: host ports -/

/-- Port B in a state. -/
def portUp (h : HostPort) : State := (up []).setPort 1 h

theorem wit_PortResets : ((portUp { link := .l0 }).port 1).link.up = true ∧ ((portUp { link := .l0 }).port 1).d3hot = false ∧
    Instr.portFlr .b ≠ .portLinkDown .b ∧ (held.setReg (Reg.VAL_PART_OWNER 1023) 0x40000000).rf (Reg.VAL_PART_OWNER 1023) 31 30 = 1 := by
  decide
theorem wit_PortLinkStates_up : let h := (portUp { released := true, perstHigh := true }).port 1
    h.released = true ∧ h.perstHigh = true ∧ h.link.up = false ∧ ((up []).port 1).released = false := by decide
theorem wit_PortLinkStates_d3 : let s := portUp { link := .l0, d3hot := true, busMaster := true, msixEnable := true }
    (s.port 1).link.up = true ∧ (s.port 1).d3hot = true ∧ (s.port 1).pendVec = 0 ∧ (s.port 1).busMaster = true ∧
    (s.port 1).msixMaskAll = false ∧ (s.setReg (Reg.MSIX_TABLE 1 103) 0).rb (Reg.MSIX_TABLE 1 (4 * 25 + 3)) 0 = false := by decide
theorem wit_PortLinkStates_busy : let s := portUp { link := .l0, aspmL1 := true, l1ss := 4 }
    (s.hm 1).dialogue = false ∧ (∀ r, r < 4 → s.fetching 1 r = false ∧ s.completing 1 r = false) ∧
    ((s.setHm 1 { dialogue := true }).hm 1).dialogue = true := by decide
theorem wit_PortLinkStates_l1 : let s := portUp { link := .l0, aspmL1 := true, l1ss := 4 }
    (s.port 1).link = .l0 ∧ s.l1Allowed 1 = true ∧ (s.port 1).subEnabled 2 = true ∧ (s.port 1).rings = [] ∧
    (s.port 1).subEnabled 1 = false := by decide
theorem wit_ConfigurationRequests : let s := portUp { link := .l1 }
    (s.port 1).link.up = true ∧ (Instr.configurationRequest .b (.header 0x10) (some 5)).wf = true ∧
    (Instr.configurationRequest .b .maxPayload none).wf = true ∧ (State.reset.port 1).link.up = false := by decide
theorem test_configuration_sizes : let s := portUp { link := .l0 }
    (after (.configurationRequest .b .maxPayload (some 512)) s).resp = {} ∧
    ((after (.configurationRequest .b .maxPayload (some 512)) s).port 1).maxPayload = 128 ∧
    ((after (.configurationRequest .b .maxReadRequest (some 256)) s).port 1).maxRead = 256 := by decide +kernel
/-- Port B makes PTM dialogues every 10 ms; one is due. -/
theorem wit_HostTimeMapping_start : let s := ((portUp { link := .l0, ptmEnable := true }).setReg (Reg.EVT_HMAP_CTRL 1) 0x0A02).setHm 1 { np := 480, due := true }
    s.ptmReady 1 = true ∧ s.ptmPeriod 1 = 480 ∧ (s.hm 1).due = true ∧ ((up []).hm 1).due = false ∧
    (up []).ptmReady 1 = false := by decide
theorem wit_HostTimeMapping_manual : ((up []).setReg (Reg.EVT_HMAP_CTRL 1) 0x0A04).rf (Reg.EVT_HMAP_CTRL 1) 2 1 = 2 := by decide
theorem wit_HostTimeMapping_pair : let s := ((up []).setReg (Reg.EVT_HMAP_CTRL 1) 0x0A02).setHm 1 { dialogue := true }
    (s.hm 1).dialogue = true ∧ s.rf (Reg.EVT_HMAP_CTRL 1) 2 1 = 1 ∧ s.rb (Reg.EVT_HMAP_STAT 1) 2 = false ∧
    ((up []).setHm 1 { dialogue := true }).rf (Reg.EVT_HMAP_CTRL 1) 2 1 ≠ 1 ∧ ((up []).hm 1).dialogue = false := by decide
theorem wit_HostTimeMapping_load : (up []).takes .hpb (Reg.EVT_HMAP_CTRL 1) (0x0A04 ||| 1) = true ∧
    fld (0x0A04 ||| 1) 2 1 = 2 ∧ bit (0x0A04 ||| 1) 0 = true := by decide
theorem wit_HostTimeMapping_mode : (up []).takes .hpb (Reg.EVT_HMAP_CTRL 1) 0x0A02 = true ∧ bit 0x0A02 0 = false ∧
    fld 0x0A02 2 1 ≠ (up []).rf (Reg.EVT_HMAP_CTRL 1) 2 1 := by decide

/-! ### Witnesses: Wave Store -/

/-- Bank 15 belongs to host A. -/
def bankA : State := up [(Reg.WS_OWN 15, 0x10000000)]
/-- Bank 15 belongs to cluster 0 as logical bank 3. -/
def bankC : State := up [(Reg.WS_OWN 15, 0x81300000)]

theorem wit_WaveBanks_cluster : bankA.takes .hpa (Reg.WS_OWN 15) 0x81300000 = true ∧ fld 0x81300000 31 28 ≠ bankA.wsOwner 15 ∧
    8 ≤ fld 0x81300000 31 28 := by decide
theorem wit_WaveBanks_lbank : bankC.takes .hpa (Reg.WS_OWN 15) 0x80400000 = true ∧ fld 0x80400000 31 28 = bankC.wsOwner 15 ∧
    8 ≤ bankC.wsOwner 15 ∧ fld 0x80400000 23 20 ≠ bankC.wsLbank 15 := by decide
theorem wit_WaveBanks_keep : bankA.takes .hpa (Reg.WS_OWN 15) 0x10000000 = true ∧ bankA.wsOwner 15 < 8 ∧
    fld 0x10000000 31 28 = bankA.wsOwner 15 := by decide
theorem wit_WaveBanks_hosts : bankA.takes .hpa (Reg.WS_OWN 15) 0x20000000 = true ∧ bankA.takes .hpa (Reg.WS_OWN 15) 0 = true ∧
    fld 0x20000000 31 28 ≠ bankA.wsOwner 15 ∧ (up []).takes .hpa (Reg.WS_OWN 0) 0x10000000 = true ∧
    (up []).wsOwner 0 = 0 := by decide
theorem wit_WaveBanks_ends : let s (n : Nat) : State := { bankA with wsBusy := [(15, n)] }
    (s 1).stalled = [] ∧ tget 0 (s 1).wsBusy 15 = 1 ∧ tget 0 (s 2).wsBusy 15 = 2 ∧
    (up [(Reg.WS_STAT, 0x10000)]).rb Reg.WS_STAT 16 = true ∧ (up []).rb Reg.WS_STAT 16 = false := by decide

/-! ### Witnesses: Stage Engines -/

/-- Stage Engine 1 in a state; host A owns bank 0, which holds the least service program image. -/
def stgUp (l : List (Nat × Word)) (x : Stage) : State :=
  (((up (l ++ [(Reg.WS_OWN 0, 0x10000000), (Reg.EVT_CTRL, 0x3005)])).setBytes 0 [3, 0, 1]).setByte 0x28 1).setStg 1 x

theorem wit_StageControls_start : (2 ||| 2) &&& 0x1C = (0 : Word) ∧ (stgUp [] { st := .stopped }).takes .hpa (Reg.STG_CTRL 1) 2 = true ∧
    ((stgUp [] { st := .stopped }).stg 1).st = .stopped := by decide
theorem wit_StageControls_notStopped : (stgUp [] { st := .run }).takes .hpa (Reg.STG_CTRL 1) 2 = true ∧
    ((stgUp [] { st := .run }).stg 1).st ≠ .stopped := by decide
theorem wit_StageControls_stop : (stgUp [] { st := .wait }).takes .hpa (Reg.STG_CTRL 1) 4 = true ∧
    ((stgUp [] { st := .wait }).stg 1).st.running = true ∧ (stgUp [] {}).takes .hpa (Reg.STG_CTRL 1) 4 = true ∧
    ((stgUp [] {}).stg 1).st.running = false := by decide
theorem wit_StageControls_load : (stgUp [] {}).takes .hpa (Reg.STG_CTRL 1) 8 = true := by decide
theorem wit_StageControls_lock : (stgUp [] { st := .run }).takes .se1 (Reg.STG_CTRL 1) 0x80 = true := by decide
theorem wit_StageControls_resume : (stgUp [(Reg.STG_CTRL 1, 0x20)] { st := .haltfault }).takes .hpa (Reg.STG_CTRL 1) 0x10 = true := by
  decide +kernel
theorem wit_StageMessages : (stgUp [] { st := .run }).takes .hpb (Reg.STG_DOORBELL 1) 2 = true ∧
    (stgUp [] { st := .run }).takes .se1 (Reg.STG_SVC_POP 1) 1 = true := by decide
theorem wit_StageMessages_send : (stgUp [] { st := .run }).takes .se1 (Reg.STG_SENDGO 1) (BitVec.ofNat 32 (b2n true)) = true ∧
    (stgUp [] { st := .run }).takes .se1 (Reg.STG_SENDGO 1) (BitVec.ofNat 32 (b2n false)) = true ∧
    (stgUp [] {}).evtRoom 11 1 = true ∧ (up [(Reg.EVT_CTRL, 0)]).evtRoom 11 1 = false := by decide
theorem wit_StageOwnEvents_engine : (stgUp [] {}).engineRuns = true ∧ State.reset.engineRuns = false ∧
    ((stgUp [] {}).stg 1).load = none ∧ ((stgUp [] {}).stg 1).kernel = false ∧ ((stgUp [] {}).stg 1).st ≠ .wait ∧
    ((stgUp [] {}).stg 1).tr = none := by decide
theorem wit_StageOwnEvents_fails : (match (stgUp [] { load := some (0x400000, .hpa, some 2) }).stgVerify 1 0x400000 .hpa with
    | .error c => c
    | .ok _ => 0) = 3 := by decide +kernel
theorem wit_StageOwnEvents_verifies : (match (stgUp [] { load := some (0, .hpa, some 1) }).stgVerify 1 0 .hpa with
    | .error _ => 0
    | .ok l => l.length) = 240 ∧ (stgUp [] {}).ready = true := by decide +kernel
theorem wit_StageOwnEvents_kernel : let s := stgUp [] { st := .faulted, kernel := true, lastSrc := some (0, .hpa) }
    (s.stg 1).kernel = true ∧ (s.stg 1).lastSrc = some (0, .hpa) := by decide
/-- A doorbell wakes the engine. -/
theorem wit_StageOwnEvents_wake : let s := stgUp [(Reg.STG_WAKE 1, 0x3F), (Reg.STG_DOORBELL 1, 1)] { st := .wait }
    (s.stg 1).st = .wait ∧ s.stgWakeDue 1 = true := by decide

/-! ### Witnesses: the Puppeteer and the cores -/

/-- Core 63 in a state; program 0 is stored and its handler, if any, stands at 2. -/
def coreUp (l : List (Nat × Word)) (trap : Nat) (c : Core) : State :=
  { (up (l ++ [(Reg.PUP_CTRL, 0x18020003)])).setCore 63 c with
    progs := [(0, { base := 0, len := 4, cost := 1, kind := 1, mem := 0, trap := trap })] }

/-- A task of voice 7, level 2. -/
def tsk : Task := { tag := 7, level := 2, blk := 6, prog := 0, region := 64, size := 16 }
/-- It is ready, its program resident. -/
def listed (ready : Bool) : Core :=
  { st := .idle, list := [{ tsk with ready := ready }], resident := [{ prog := 0, base := 0, len := 4 }] }

/-- Entry 255: a P3 task of host A on core 63, its program stored. -/
def taskUp (cfg : Word) : State :=
  { coreUp [(Reg.PUP_TASK_CFG 255, cfg), (Reg.PUP_TASK_MEM 255, 0x00100080)] 0 (listed false) with
    taskOn := [255], progs := [(0, { base := 0, len := 4, cost := 1, kind := 2, mem := 0, trap := 0 })] }

theorem wit_TaskConfiguration : (taskUp 0xBFC00040).takes .hpa (Reg.PUP_TASK_CFG 255) (0xBFC00040 ||| 2) = true ∧
    (taskUp 0xBFC00040).takes .hpa (Reg.PUP_TASK_CFG 255) (0xBFC00040 &&& 0x7FFFFFFF) = true ∧
    (taskUp 0x3FC00040).takes .hpa (Reg.PUP_TASK_CFG 255) (0x3FC00040 ||| 0x80000000) = true ∧
    (taskUp 0xBFC00040).taskOn.contains 255 = true ∧ (taskUp 0xBFC00040).tagPresent (fixedTag 255) = false ∧
    ((taskUp 0xBFC00040).core 63).hasProg 0 = true ∧ fld 0xBFC00042 29 28 = 3 := by decide +kernel
theorem wit_TaskConfiguration_none : let s := taskUp 0x9FC00040
    s.takes .hpa (Reg.PUP_TASK_CFG 255) (0x9FC00040 &&& 0x7FFFFFFF) = true ∧ fld (0x9FC00040 &&& 0x7FFFFFFF) 29 28 ≠ 3 := by
  decide +kernel
theorem wit_TaskSchedule_engine : (coreUp [] 0 {}).engineRuns = true ∧ State.reset.engineRuns = false := by decide
theorem wit_TaskSchedule_ready : let s := (coreUp [] 0 (listed false)).setCtx 7 { placed := true, ve := 63, pubBlk := some 6 }
    (s.core 63).list.find? (fun y => decide (y.tag = 7) && !y.ready) = some tsk ∧ s.canReady 63 tsk = true ∧
    (coreUp [] 0 { list := [tsk] }).canReady 63 tsk = false := by decide
theorem wit_TaskSchedule_dispatch : let s := coreUp [] 0 (listed true)
    s.coreFree 63 = true ∧ s.firstSaved (s.core 63) 2 = none ∧ (s.firstReady (s.core 63) 2).isSome = true ∧
    s.firstReady (s.core 63) 0 = none ∧ s.firstReady (s.core 63) 1 = none ∧ (coreUp [] 0 {}).coreFree 63 = false := by decide
theorem wit_TaskSchedule_saved : let s := coreUp [] 0 { st := .idle, saved := [{ task := tsk }] }
    s.coreFree 63 = true ∧ (s.firstSaved (s.core 63) 2).isSome = true := by decide
theorem wit_TaskSchedule_preempt : let c : Core := { listed true with st := .run, run := some { task := { tsk with level := 3, tag := 9, region := 200 } } }
    let s := coreUp [] 0 c
    s.rb Reg.PUP_CTRL 0 = true ∧ ({ task := { tsk with level := 3, tag := 9, region := 200 } } : TaskRun).savable c = true ∧ (2 : Nat) < 3 ∧
    (s.firstReady (s.core 63) 2).isSome = true := by decide
theorem wit_TaskSchedule_yield : let r : TaskRun := { task := { tsk with tag := 8, region := 200 }, yielded := true }
    let c : Core := { listed true with st := .run, run := some r }
    let s := coreUp [] 0 c
    r.savable c = true ∧ r.yielded = true ∧ (s.firstReady (s.core 63) 2).isSome = true ∧ s.firstReady (s.core 63) 1 = none ∧
    (coreUp [(Reg.PUP_CTRL, 0)] 0 c).rb Reg.PUP_CTRL 0 = false := by decide
theorem wit_TaskSchedule_room : let r : Resident := { prog := 0, base := 0, len := 4, loading := true, noRoom := true }
    ((coreUp [] 0 { resident := [r] }).core 63).resident.all (fun y => decide (y.prog ≠ 0) || !y.noRoom) = false ∧
    ((coreUp [] 0 {}).core 63).resident.all (fun y => decide (y.prog ≠ 0) || !y.noRoom) = true := by decide
theorem wit_TaskSchedule_load : let s := coreUp [] 0 { resident := [{ prog := 0, base := 0, len := 4, loading := true }] }
    (s.core 63).resident.find? (fun y => decide (y.prog = 0) && y.loading) = some { prog := 0, base := 0, len := 4, loading := true } ∧
    (s.prog 0).isSome = true ∧ Memory.wf s.mem = true := by decide

/-- A task that has met TEND with a lane for bus 255. -/
def ended : TaskRun := { task := tsk, ended := some { tag := 7, epoch := 0, blk := 6, part := 0, lanes := [(255, [5])] } }

theorem wit_TaskEnd_accept : let s := coreUp [] 0 { run := some ended }
    s.engineRuns = true ∧ (s.core 63).run = some ended ∧ ended.delivered = false ∧ ended.fetches = [] ∧ tagKind 7 ≠ 3 ∧
    (255 : Nat) < 256 := by decide
theorem wit_TaskEnd_judged : let s := coreUp [] 0 { run := some ended }
    s.epochFor 7 6 = 0 ∧ s.col.accepted.contains (7, 6) = false ∧ s.stageClosed 7 6 = false ∧ s.stageClosed 7 5 = true ∧
    ({ s with col := { s.col with accepted := [(7, 6)] } } : State).col.accepted.contains (7, 6) = true := by decide
/-- A lower core of the cluster waits at the port. -/
theorem wit_TaskEnd_port : let s := coreUp [] 0 { run := some ended }
    s.portTaken 63 = false ∧ (s.setCore 62 { run := some ended }).portTaken 63 = true := by decide
theorem wit_TaskEnd_completion : let r : TaskRun := { ended with delivered := true, doneInd := true }
    r.delivered = true ∧ tagKind r.task.tag = 0 ∧ (coreUp [] 0 { run := some r }).epochFor 7 6 = r.task.epoch ∧
    ((coreUp [] 0 {}).slot 7).endBlk = none ∧ ({ ended with task := { tsk with level := 3 } } : TaskRun).task.level = 3 := by decide
theorem wit_TaskEnd_running : ({ task := tsk } : TaskRun).ended = none ∧ tagKind 0xC000 = 3 := by decide

/-- Voice 8,191 migrates from core 63 to core 0. -/
def migrating (copying : Bool) : State :=
  (coreUp [] 0 {}).setCtx 8191 { placed := true, ve := 63, base := 64, size := 16, mig := some { toVe := 0, toBase := 96, blk := 7, copying := copying } }

theorem wit_CoreRecovery_copy : (migrating false).engineRuns = true ∧ ((migrating false).ctx 8191).mig.isSome = true ∧
    (migrating false).tagActive (voiceTag 8191 false) = false ∧ 4 ≤ ((migrating false).ctx 8191).size ∧
    ((migrating false).ctx 8191).pubFrame ≤ 1 ∧ ((migrating true).ctx 8191).mig.map (·.copying) = some true ∧
    ((coreUp [] 0 {}).ctx 8191).mig = none := by decide
theorem wit_CoreRecovery_resume : let s := coreUp [(Reg.VE_CTRL 63, 1)] 0 { st := .haltfault }
    s.takes .hpa (Reg.VE_CTRL 63) 3 = true ∧ (s.core 63).st = .haltfault ∧ (coreUp [] 0 {}).takes .hpa (Reg.VE_CTRL 63) 2 = true := by
  decide +kernel
theorem wit_CoreRecovery_kernel : ((coreUp [] 0 { kernel := some 1 }).core 63).kernel = some 1 ∧
    ((stgUp [] { kernel := true }).stg 1).kernel = true ∧ ((coreUp [] 0 {}).core 63).kernel ≠ some 1 := by decide

/-- Core 63 runs a task whose first bundle is these 8 bytes. -/
def running (bundle : List Byte) : State :=
  ((coreUp [] 0 { st := .run, run := some { task := { tsk with len := 4 } }, resident := [{ prog := 0, base := 0, len := 4 }] }).setBytes
    (imBase 63) bundle)

/-- Whether the first bundle is done, faults, waits or halts. -/
def outcomeOf (s : State) : Nat :=
  let r : TaskRun := { task := { tsk with len := 4 } }
  match issue r.arch (s.veEnv 63 r) r.lanes r.fetches 0 (s.veFetch 63 r) with
  | .done _ _ => 1
  | .fault _ _ _ _ => 2
  | .wait => 3
  | .halt _ _ _ _ => 4

/-- A bundle whose X slot adds G1 and G2 into G3, and one that accumulates into a half near its limit. -/
theorem wit_SlotArithmetic : let a : Arch := { g := [(1, 5), (2, 7)], acc := [(0, BitVec.ofInt 80 (2 ^ 79 - 1))], ptr := [(9, 0x200), (17, 24)] }
    let x := xSlot a (0x0C * 2 ^ 18 + 3 * 2 ^ 13 + 1 * 2 ^ 8 + 2 * 2 ^ 3) 0
    let p : Slots := ⟨false, false, x, {}, {}, {}⟩
    p.ma = {} ∧ p.mb = {} ∧ p.fl = {} ∧ x.g = [(3, 12)] ∧
    2 ^ 79 ≤ (a.accu 0 0).toInt + 2 * ((a.gr 1).toInt * (a.gr 2).toInt) ∧ (a.accu 0 1).toInt = 0 ∧
    (a.px 2 1).toNat ≠ 0 ∧ (a.px 1 1).toNat + (a.px 2 1).toNat ≤ 2 ^ 32 ∧ (a.px 2 0).toNat = 0 := by decide

theorem wit_BundleIssued_done : ((running []).core 63).kernel = none ∧ outcomeOf (running []) = 1 := by decide +kernel
theorem wit_BundleIssued_fault : outcomeOf (running [0xFF, 0xFF, 0xFF, 0xFF, 0xFF, 0xFF, 0xFF, 0xFF]) = 2 := by decide +kernel
theorem wit_BundleIssued_waits : let r : TaskRun := { task := { tsk with len := 4 }, fetches := [{ reg := 3, val := 9 }], pend := .overflow }
    ((coreUp [] 0 { run := some r }).core 63).run = some r ∧ r.pend ≠ .none ∧ r.fetches ≠ [] := by decide
theorem wit_BundleIssued_se : let r : TaskRun := { task := tsk }
    let s := stgUp [] { st := .run, tr := some r, len := 4 }
    (s.stg 1).tr = some r ∧ (s.stg 1).stall = none ∧
    (match issue r.arch (s.seEnv 1 r) r.lanes r.fetches 0 (s.dword (seBase 1 + 0x2000)).toNat with
      | .done _ p => p.ma.access.isNone && p.mb.access.isNone && p.ma.wf.isNone
      | _ => false) = true := by decide +kernel
theorem wit_CoreTraps_fetch : let f : Fetch := { reg := 3, val := 9 }
    ({ task := tsk, fetches := [f] } : TaskRun).fetches[0]? = some f ∧ ({ task := tsk } : TaskRun).ended = none := by decide
theorem wit_CoreTraps_second : let f : Fetch := { reg := 3, val := 9, second := some { addr := 0x03FFFFFC, fmt := 0, frac := 0, re := 0, im := 0 } }
    ({ task := tsk, fetches := [f] } : TaskRun).fetches[0]? = some f ∧ f.second.isSome = true := by decide
theorem wit_CoreTraps_windows : let s (p : Pending) : State := coreUp [] 0 { run := some { task := tsk, pend := p } }
    ((s .overflow).core 63).run.map (·.pend) = some .overflow ∧ ((s .underflow).core 63).run.map (·.pend) = some .underflow ∧
    ((stgUp [] { tr := some { task := tsk, pend := .overflow } }).stg 1).stall = none := by decide
theorem wit_CoreTraps_fault : let r (trap : Nat) : TaskRun := { task := { tsk with len := 4, trap := trap }, pend := .fault 1 2 0x05000000 0x10000 }
    let s (trap : Nat) := coreUp [] trap { run := some (r trap), resident := [{ prog := 0, base := 0, len := 4 }] }
    ((s 2).veEnv 63 (r 2)).trap ≠ 0 ∧ ((s 0).veEnv 63 (r 0)).trap = 0 ∧
    ((stgUp [] { st := .run, tr := some (r 0), trap := 2 }).stg 1).st.running = true ∧
    (stgUp [(Reg.STG_CTRL 1, 0)] {}).rb (Reg.STG_CTRL 1) 6 = false := by decide

/-! ### Witnesses: security -/

/-- Fuses of an OPEN device, and of a SECURED one whose MKH is 5. -/
def opened : State := { up [] with sec := { fuses := BitVec.ofNat 512 (2 ^ 14) }, hidden := [(Reg.SEC_MKH_STG 0, 5)] }
def secured : State := { up [] with sec := { fuses := BitVec.ofNat 512 (2 ^ 14 + 5 * 2 ^ 64 + crc16 (toLE 5 28) * 2 ^ 48) } }

theorem wit_SecurityRequests_fuses : opened.takes .hpa Reg.SEC_FUSE_CTRL 0x4D4B0001 = true ∧
    secured.takes .se0 Reg.SEC_FUSE_CTRL 0x4D4B0002 = true ∧ secured.takes .se1 Reg.SEC_FUSE_CTRL 0x4D4B0004 = true := by
  decide +kernel
theorem wit_SecurityRequests_seal : bankA.takes .hpa Reg.SEC_SEAL_REQ (0x80000000 ||| BitVec.ofNat 32 15) = true := by decide
theorem wit_SecurityRequests_quote : (up []).takes .hpb (Reg.SEC_ATT_CTRL 1) 1 = true ∧ (up []).sec.quotes.contains 1 = false := by
  decide +kernel
theorem wit_SecurityRequests_debug : (up []).takes .se1 (Reg.SEC_DBG_CTRL 3) 1 = true ∧
    (up []).takes .se1 (Reg.SEC_DBG_CTRL 3) 2 = true ∧ (up []).takes .se1 (Reg.SEC_DBG_CTRL 3) 4 = true ∧
    (up []).sec.drbgRuns = false ∧ { (up []).sec with drbgRuns := true }.drbgRuns = true := by decide +kernel

/-- SEC in a state. -/
def secUp (x : Sec) : State := { up [] with sec := x }

theorem wit_SecurityEnds_fuses : (secUp { fuseOp := some { svn := true } }).sec.fuseOp = some { svn := true } ∧ (secUp { fuseOp := some { svn := true } }).phase = .run ∧ (secUp {}).secVersion < 32 ∧
    (up []).sec.fuseOp = none := by decide +kernel
theorem wit_SecurityEnds_seal : (secUp { sealJob := some (15, .hpa) }).stalled = [] ∧
    (secUp { sealJob := some (15, .hpa) }).sec.sealJob = some (15, .hpa) ∧
    (match (secUp { sealJob := some (15, .hpa) }).sealOpen 15 with
      | .ok _ => 0
      | .error c => c) ≠ 0 := by decide +kernel
theorem wit_SecurityEnds_quote : (secUp { quotes := [3], ident := some [1], drbgRuns := true }).sec.quotes = (3 : Fin 4).val :: [] ∧
    (secUp { quotes := [3] }).sec.ident = none ∧ (up []).sec.quotes = [] := by decide +kernel
theorem wit_SecurityEnds_unlock : tget [] (secUp { unlocking := [(3, [0])] }).sec.unlocking 3 = [0] ∧
    ((List.range 16).any (up []).wsSealed || (up []).sec.sealJob.isSome) = false ∧ (up []).dbgoffFuse = false ∧
    tget [] (secUp { unlocking := [(3, [3, 0])] }).sec.unlocking 3 = [3, 0] := by decide +kernel
theorem wit_SecurityEnds_entropy : (up []).awake = true ∧ State.reset.awake = false := by decide +kernel

/-! ### Witnesses: power -/

/-- A device in a phase. -/
def at_ (ph : Phase) (l : List (Nat × Word)) : State := { up l with phase := ph }

theorem wit_PowerStates_requests : (up []).takes .hpa Reg.PWR_REQSET 0x11 = true ∧
    (at_ .sleep [(Reg.PWR_REQ, 0x11)]).takes .hpa Reg.PWR_REQCLR 0x11 = true ∧ bit 0x11 (Req.ix .hpa) = true ∧
    (ringUp [] {}).voter (Req.ix .hpa) = true := by decide
/-- Host A is the only voter and asks for OFF, or for SLEEP. -/
theorem wit_PowerStates_consent : let s := (ringUp [(Reg.PWR_REQ, 0x11), (Reg.EVT_CTRL, 0)] {}).setPort 1 {}
    let z := (ringUp [(Reg.PWR_REQ, 0x01), (Reg.EVT_CTRL, 0)] {}).setPort 1 {}
    s.engineIdle = true ∧ s.phase = .run ∧ s.consent 4 = true ∧ s.nvm.op = none ∧ z.consent 4 = false ∧
    z.consent 0 = true ∧ (ringUp [] {}).consent 0 = false ∧ State.reset.phase ≠ .run ∧ State.reset.phase ≠ .sleep := by
  decide +kernel
theorem wit_PowerStates_sleep : let s : State := { stgUp [(Reg.STG_WAKE 1, 0x3F), (Reg.STG_DOORBELL 1, 1)] { st := .wait } with phase := .sleep }
    s.phase = .sleep ∧ s.wakeCause = true ∧ (at_ .sleep []).wakeCause = false := by decide
theorem wit_PowerStates_off : (at_ .commit []).phase = .commit ∧ (at_ .commit []).nvm.op = none ∧ State.reset.phase = .off := by
  decide
theorem wit_StartUpAndSag_phases : (at_ .waitPgood []).phase = .waitPgood ∧ (at_ .waitCrystal []).record 2 = none ∧
    (at_ .waitRecords []).phase = .waitRecords := by decide +kernel
theorem wit_StartUpAndSag_release : let s : State := { at_ .waitSec [] with sec := { booted := true } }
    s.phase = .waitSec ∧ s.sec.booted = true ∧ s.nclNow = 8 ∧ s.record 8 = none ∧ s.age.settling = false := by decide +kernel
theorem wit_StartUpAndSag_selfTest : let s := (at_ .selfTest []).setCore 63 { kernel := some 2 }
    s.phase = .selfTest ∧ s.age.measuring = false ∧ s.age.settling = false ∧ (s.core 63).kernel = some 2 := by decide
theorem wit_StartUpAndSag_sag : (up []).sagMonitor = true ∧ (up []).sagLevel = 0 ∧ (up []).ready = true ∧
    (at_ .selfTest []).sagMonitor = true ∧ (at_ .selfTest []).ready = false ∧ State.reset.sagMonitor = false := by decide
/-- At level 3, a fall to level 2. -/
theorem wit_StartUpAndSag_fall : let s := after (.sagLevelRise 3) (up [])
    s.sagMonitor = true ∧ s.sagLevel = 3 ∧ s.sagLevel ≠ 4 := by decide

/-! ### Witnesses: non-volatile memory and ageing -/

theorem wit_NvmOperations_write : bankA.takes .hpa Reg.NVM_CMD (0x10000000 ||| (BitVec.ofNat 8 64).setWidth 32) = true ∧
    (recordOf 64).isSome = true ∧ bankA.recordRights .hpa 64 false = true ∧ bankA.recordRights .hpa 1 false = false ∧
    (recordOf 1).isSome = true := by decide +kernel
theorem wit_NvmOperations_others : (up []).takes .hpa Reg.NVM_CMD (0x20000000 ||| (BitVec.ofNat 8 64).setWidth 32) = true ∧
    (up []).takes .hpa Reg.NVM_CMD 0x30000000 = true := by decide +kernel
theorem wit_NvmOperations_done : let o : NvmOp := { op := 2, rid := 64, req := some .hpa, result := 0 }
    let s : State := { up [] with nvm := { op := some o } }
    s.nvm.op = some o ∧ s.nvm.agehDue = [] ∧ s.phase ≠ .commit ∧ o.result = 0 ∧ o.moved = false ∧ (s.nvmEffect o).2 = 0 ∧
    (s.nvmEffect { o with result := 1 }).2 ≠ 0 := by decide +kernel
theorem wit_AgeingPlanner_start : (up []).takes .hpa Reg.AGE_CTRL (0x00141405 ||| 0x80000000) = true ∧ (up []).age.measuring = false ∧
    (up []).age.settling = false := by decide
theorem wit_AgeingPlanner_ends : { (up []).age with measuring := true }.measuring = true ∧
    { (up []).age with settling := true }.settling = true ∧ (up []).ready = true ∧ State.reset.ready = false ∧
    (up []).nvm.op = none ∧ (up []).age.startup = false := by decide

/-! ### Witnesses: the strobe, publications, inputs, accesses -/

theorem wit_FrameStrobes_off : State.reset.clocked = false := by decide
theorem wit_FrameStrobes_sleep : let s := at_ .sleep [(Reg.TMR_CFG 15, 0x20000000), (Reg.TMR_STAT 15, 2), (Reg.TMR_COUNT 15, 2)]
    s.clocked = true ∧ s.now = some 100 ∧ s.dueTxns 101 = [] ∧ s.sagLevel = s.sagActed ∧ s.mck.ratePend = none ∧
    s.sagLevel < 3 ∧ s.mute = none ∧ s.phase = .sleep ∧
    s.tmrRun 15 = true ∧ s.tmrRef 15 = false ∧ 1 < (s.reg (Reg.TMR_COUNT 15)).toNat ∧ s.tmrRun 14 = false := by decide
theorem wit_FrameStrobes_run : let s := up [(Reg.TMR_STAT 0, 2), (Reg.TMR_COUNT 0, 1), (Reg.OUT_MAP_DAC 7, 0x800000FF)]
    s.clocked = true ∧ s.dueTxns 101 = [] ∧ s.phase = .run ∧ s.sagLevel < 3 ∧ (100 + 1) % 16 ≠ 0 ∧ s.mute = none ∧
    s.col.invalidTo ≤ 100 + 1 ∧ s.mck.ratePend = none ∧ s.cores = [] ∧ s.tmrRun 0 = true ∧ s.tmrRef 0 = false ∧ (s.reg (Reg.TMR_COUNT 0)).toNat ≤ 1 ∧
    bit (s.outMap 79) 31 = true ∧ 16 * s.depth ≤ 101 := by decide

/-- A publication of voice 8,191 that writes slots 0 and 31. -/
def pub (deferred : Bool) : PubFrame :=
  { voice := 8191, blk := 6, frameNo := 1, words := [(0, 1), (31, 2)], deferred := deferred }

theorem wit_Publications_made : let s : State := { up [] with pubs := [pub false] }
    (pub false).words.map (·.1) = [0, 31] ∧ [0, 31].Nodup ∧
    s.pubs.find? (fun o => decide (o.voice = 8191) && !o.heldForCopy && !o.deferred) = some (pub false) ∧
    s.frameRead 8191 6 1 (s.ctx 8191).ve = false ∧ s.hasTurn (pub false) = true ∧ (pub false).loose = false ∧
    (s.pubs.any fun o => !o.loose && decide (o.blk = 6) && decide (o.slice = (pub false).slice) && decide (o ≠ pub false)) = false ∧
    ({ s with pubs := { pub false with voice := 1 } :: s.pubs } : State).hasTurn (pub false) = false := by decide
theorem wit_Publications_deferred : let s : State := { up [] with pubs := [pub true] }
    let z := s.setCore 0 { run := some { task := { tag := 8191, level := 2, blk := 5, prog := 0, region := 0, size := 4, frameNo := 1 } } }
    s.pubs.find? (fun o => decide (o.voice = 8191) && !o.heldForCopy && o.deferred) = some (pub true) ∧
    z.frameRead 8191 6 1 (z.ctx 8191).ve = true ∧ (up []).pubs = [] ∧
    ({ z with pubs := [pub false] } : State).hasTurn (pub false) = true := by decide
theorem wit_Publications_release : let e : HeapEntry := { stamp := some 3, src := 8, seq := 0, item := .midi 0xF8 }
    let s : State := { up [(Reg.EVT_CTRL, 0x3005)] with heap := [e], paused := [(96, [0])] }
    s.rb Reg.EVT_CTRL 0 = true ∧ s.leftOf [0] = [e] ∧ s.listsFull = false ∧ s.engineRuns = true ∧ (s.stg (s.rf Reg.EVT_CTRL 8 8)).svcq.length < 256 ∧
    (up [(Reg.EVT_CTRL, 0)]).rb Reg.EVT_CTRL 0 = false ∧ (up []).paused = [] := by decide

theorem wit_OutputsAndReferences_tdm : let s := up [(Reg.OUT_TDM_CFG 3, 0x8EA00000), (Reg.OUT_TDM_CFG 0, 0xC0A00000), (Reg.COL_IN 63, 0x800000FF)]
    s.clocked = true ∧ s.now = some 100 ∧ bit (s.reg (Reg.OUT_TDM_CFG 3)) 31 = true ∧ s.col.readoutInvalid = false ∧
    s.col.opened = none ∧ bit (s.reg (Reg.OUT_TDM_CFG 0)) 30 = true ∧ s.inForce ≠ some 2 ∧
    bit ((up []).reg (Reg.OUT_TDM_CFG 1)) 31 = false ∧ s.tdmSlots 3 = 16 ∧ (List.replicate 513 true).length ≤ 1024 ∧
    State.reset.clocked = false := by decide +kernel
/-- R385: port 1 sends two slots of 16 bits in I2S form: FS low in the first slot, the data one period late. -/
theorem test_tdm_line : let s := up [(Reg.OUT_TDM_CFG 1, 0x80000000)]
    (s.tdmDrives 1 [0x80000000, 0x00010000]).fs = List.replicate 16 false ++ List.replicate 16 true ∧
    (s.tdmDrives 1 [0x80000000, 0x00010000]).dout = [false, true] ++ List.replicate 30 false ∧
    s.tdmSlotIn 1 ([false, true] ++ List.replicate 30 false ++ [true]) 1 = 0x00010000 := by decide +kernel
/-- The S/PDIF receiver is locked at the engine rate and is the reference in force. -/
theorem wit_OutputsAndReferences_spdif : let s : State := { up [(Reg.OUT_SPDIF_RX, 0x80000021)] with mck := { st := .locked, target := some 1 } }
    let x : SpdifFrame := { pos := 0, left := 1, right := 2, parityOk := true, validity := false, cs := 0 }
    s.clocked = true ∧ s.rb Reg.OUT_SPDIF_RX 31 = true ∧ s.spdifUsable x = true ∧ s.spdifUsable { x with parityOk := false } = false ∧
    (up []).rb Reg.OUT_SPDIF_RX 31 = false ∧ (up []).col.spdifPos = 0 := by decide
theorem wit_OutputsAndReferences_candidates :
    let s (y : Int) := { (up [(Reg.MCK_CTRL, 0x115), (Reg.MCK_REF 0, 0x80000000)]).setCand 0
      { edges := [(64, 0)], yr := y, measured := true } with refNow := 4915200 * 2 ^ 32 }
    (s 0).awake = true ∧ (s 0).rb Reg.MCK_CTRL 0 = true ∧ (s 109951163).candOk 0 = true ∧ refSecond ≤ 5 * ((s 0).timeAt (min 0 (256 * (s 0).mck.interval)) (256 * (s 0).mck.interval) - ((s 0).cand 0).broke) ∧
    (s 109951164).candOk 0 = false ∧ State.reset.awake = false := by decide
/-- The edges of WCLK_IN: none before, one a frame before, one out of time. -/
theorem wit_OutputsAndReferences_edges : let s (l : List (Nat × Int)) := (up [(Reg.MCK_CTRL, 0x115)]).setCand 0 { edges := l }
    (s []).clocked = true ∧ (s []).now.isSome = true ∧ ((s []).cand 0).edges = [] ∧
    (s []).framesIn ((s []).timeAt 0 1 - (-(512 * 2 ^ 32))) = 1 ∧ (s []).framesIn ((s []).timeAt 0 1 - (-(255 * 2 ^ 32))) = 0 := by
  decide +kernel

/-- Part 1,023 belongs to host A, and its last node is written. -/
theorem wit_Accesses_table : let s := up [(Reg.VAL_PART_OWNER 1023, 0x40000000)]
    s.arrives .hpa 0x0543FFFC = true ∧ s.arrives .hpb 0x0543FFFC = true ∧ s.phase = .run ∧ tableWord 0x0543FFFC = true ∧ 0x0543FFFC % 4 = 0 ∧ s.tableMay (Req.agent .hpa) 0x0543FFFC = true ∧
    s.inWriteSet none 0x0543FFFC = false ∧ s.tableMay (Req.agent .hpb) 0x0543FFFC = false ∧ tableWord 0x05440000 = false := by decide
theorem wit_Accesses_requests : let m : MemReq := ⟨true, 0x1FFFFC, List.replicate 4 (some 0)⟩
    m.ok 0x200000 = true ∧ (portUp { link := .l0 }).portTakes .b = true ∧ (portUp { link := .l0 }).posted = [] ∧
    (portUp { link := .l0 }).stalled.any (fun e => decide (e.1 = .b) && e.2.2.isWrite) = false ∧
    (({ portUp { link := .l0 } with stalled := [(.b, true, m)] } : State).stalled.any
      (fun e => decide (e.1 = .b) && e.2.2.isWrite)) = true ∧ (State.reset.port 1).link = .down := by decide
theorem wit_Accesses_wave : let s := bankA.setPort 0 { link := .l0 }
    (0x03FFFFF8 : Nat) < 0x04000000 ∧ s.portTakes .a = true ∧ s.stalled = [] ∧ 0x03FFFFF8 % 8 = 0 ∧ bankOf 0x03FFFFF8 = 15 ∧ s.wsOwner 15 = Port.ix .a + 1 ∧
    s.wsStalls 1 15 = false ∧ s.wsSealed 15 = false ∧ s.wsOwner 14 ≠ Port.ix .a + 1 ∧ s.wsFeed 14 = false ∧
    (s.setReg (Reg.WS_OWN 15) 0x10040000).wsSealed 15 = true := by decide

/-! ### Witnesses: further clauses -/

/-- An 8-bit access, and a 64-bit one whose address is no multiple of 8. -/
theorem wit_RegisterWriteAlone_narrow : (up []).arrives .hpa (Reg.TMR_CFG 15) = true ∧ isCsr (Reg.TMR_CFG 15) = true ∧
    (findReg (Reg.TMR_CFG 15 / 4 * 4)).isSome = true ∧ Reg.TMR_COUNT 15 % 8 ≠ 0 ∧ (findReg (0x07170000 / 4 * 4)).isSome = false := by
  decide +kernel
/-- A wide register, taken and refused as a whole; and two registers written in one access. -/
theorem wit_RegisterWriteAlone_wide : let a := Reg.HPx_CPL_BASE 0 3
    a % 8 = 0 ∧ wideAt a = true ∧
    (findReg a).map (fun h => firstCause [(up []).directCause .hpa h a 0x1000, (up []).directCause .hpa { h with upper := true } (a + 4) 1]) = some 0 ∧
    (findReg a).map (fun h => firstCause [(up []).directCause .hpb h a 0x1000, (up []).directCause .hpb { h with upper := true } (a + 4) 1]) = some 1 ∧
    (findReg a).map (fun h => decide (h.name ≠ .TXN_SDATA)) = some true ∧
    Reg.TMR_CFG 0 % 8 = 0 ∧ wideAt (Reg.TMR_CFG 0) = false ∧ (up []).posted = [] := by decide +kernel
/-- Hosts A and B write one word in one slot: host A, served first in the latest slot, gives way. -/
theorem wit_RegisterWriteAlone_two : let s : State := { up [] with arbLast := some .hpa }
    let a := Reg.TMR_CFG 15
    s.arrives .hpb a = true ∧ isCsr a = true ∧ arbRank s.arbLast .hpb < arbRank s.arbLast .hpa ∧
    (findReg a).map (fun h => (h.bitsOf .w1c, { s with arbLast := some .hpb }.directCause .hpb h a 0x40000000,
      ({ s with arbLast := some .hpb }.applyWord .hpb h a 0x40000000).directCause .hpa h a 0x20000000)) = some (0, 0, 1) ∧
    (findReg a).map (fun h => ({ s with arbLast := some .hpb }.applyWord .hpb h a 0).directCause .hpa h a 0x20000000) = some 0 := by
  decide +kernel
/-- A REF timer whose cycles have passed. -/
theorem wit_TimerCommands_due : let s := { refTimer with refEnd := [(15, 9)], refAll := 9 }
    s.takes .hpb (Reg.TMR_COUNT 15) 5 = true ∧
    (s.tmrRun 15 && s.tmrRef 15 && decide (tget 0 s.refEnd 15 ≤ s.refAll)) = true ∧
    (s.tmrRun 0 && s.tmrRef 0 && decide (tget 0 s.refEnd 0 ≤ s.refAll)) = false := by decide
theorem wit_CheckUnits_acfg : (chkUp 0).takes .hpa (Reg.CHK_ACFG 3) 0x80080000 = true ∧
    (up [(Reg.CHK_CFG 0, 0x20200003)]).takes .hpa (Reg.CHK_ACFG 0) 0x80040000 = true ∧
    bit ((up []).reg (Reg.CHK_ACFG 0)) 31 = false ∧ bit ((chkUp 0).reg (Reg.CHK_ACFG 3)) 31 = true := by decide
/-- Even and odd parity. -/
theorem wit_UartReceive_parity : (uartUp 0x8C840000 {}).rf (Reg.UART_CFG 2) 19 18 = 1 ∧
    (uartUp 0x8C880000 {}).rf (Reg.UART_CFG 2) 19 18 = 2 ∧ (uartUp 0x8C840000 {}).rf (Reg.UART_CFG 2) 23 20 = 8 ∧
    chA.startLow = true := by decide
/-- A header being sent, of which the free value names a byte or none; a response between two bytes. -/
theorem wit_UartEnableAndArm_online : let f : LinFrame := { stage := .header, pid := 0xC1 }
    f.onLine = true ∧ f.stage ≠ .dropped ∧ f.inProgress 0 = none ∧ f.inProgress 1 = none ∧ f.inProgress 2 = some 0x55 ∧
    f.inProgress 3 = some 0xC1 ∧ ({ stage := .publish, toSend := [7] } : LinFrame).onLine = true ∧
    (uartUp 0x8C800000 {}).takes .hpa (Reg.UART_CFG 2) (0x8C800000 ||| 0x80000000) = false := by decide
/-- A break that cuts off the response of a responder; UART 2 delivers to host A with TXE enabled. -/
theorem wit_LinResponder_cut : let f : LinFrame := { stage := .publish, toSend := [7] }
    let s := linUp 0x40000000 f
    s.uartMode 2 = 2 ∧ (s.uart 2).frame = some f ∧ f.spent = false ∧ f.status = 0 ∧ (s.uart 2).cur = none ∧
    (s.uart 2).txq = [] ∧ s.rb (Reg.UART_IEN 2) 3 = true ∧ s.uartDest 2 = 3 := by decide
/-- A response byte read back, well and wrongly, and one received with a low stop bit. -/
theorem wit_LinFrameEnds_publish : let f : LinFrame := { stage := .publish, toSend := [0x41, 0x42] }
    let s := linUp 0x40000000 f
    s.awake = true ∧ (s.uart 2).frame = some f ∧ f.spent = false ∧ s.uartOn 2 = true ∧ (s.uart 2).abWait = false ∧
    s.uartMode 2 ≠ 0 ∧ chA.echoes (f.toSend.headD 0) = true ∧ chNoisy.startLow = true ∧ chA.echoes 0x42 = false ∧
    (let e := s.charEntry 2 (charOf 0x41 false)
     (bit e 16 || bit e 18 || bit e 19) = true) := by decide

/-- An entry that stages a parameter of host B's timer, one of host A's, and a due and a later transaction. -/
theorem wit_TransactionChecked_apply : let s := up []
    s.txnCheck .hpa [(Reg.TMR_CFG 15, 0x20000000)] 100 = none ∧
    (s.txnCheck .hpa [(0x07170000, 0)] 100).isSome = true ∧ reqOf 0 = .hpa ∧
    (let z := (s.setTxn 0 { st := .pending, time := some 25600 }).setTxn 1 { st := .pending, time := some 25856, commitSeq := 1 }
     (z.dueTxns 100).length = 1 ∧ (z.dueTxns 101).length = 2) := by decide +kernel

theorem wit_StageControls_oos : ((stgUp [] { oos := true }).stg 1).oos = true ∧ (stgUp [] { oos := true }).takes .hpa (Reg.STG_CTRL 1) 8 = true := by
  decide
/-- A load whose value arrives, and one that the engine's TEND waits for. -/
theorem wit_StageOwnEvents_stall : let s (e : Option Contribution) := stgUp [] { st := .run, tr := some { task := tsk, ended := e }, stall := some [] }
    ((s none).stg 1).stall = some [] ∧ ((s none).stg 1).tr = some { task := tsk } ∧
    ((s (some { tag := 0xC000, epoch := 0, blk := 6, part := 0, lanes := [] })).stg 1).tr.map (fun r => (r.ended.isSome, r.fetches)) = some (true, []) := by
  decide

/-- The outcome of the first bundle of Stage Engine 1's program. -/
def seOutcome (s : State) : Nat :=
  let r : TaskRun := { task := tsk }
  match issue r.arch (s.seEnv 1 r) r.lanes r.fetches 0 (s.dword (seBase 1 + 0x2000)).toNat with
  | .done _ _ => 1
  | .fault _ _ _ _ => 2
  | .wait => 3
  | .halt _ _ _ _ => 4

/-- Stage Engine 1 at the first of these bundles. -/
def seAt (bundle : List Byte) : State :=
  (stgUp [] { st := .run, tr := some { task := tsk }, len := 4 }).setBytes (seBase 1 + 0x2000) bundle

theorem wit_BundleIssued_seFault : seOutcome (seAt [0xFF, 0xFF, 0xFF, 0xFF, 0xFF, 0xFF, 0xFF, 0xFF]) = 2 ∧
    (seAt []).posted = [] ∧ (seAt []).engineRuns = true := by decide +kernel

/-- A bundle whose MA slot loads G3 from P0: from the engine's own data, and from a device address. -/
theorem wit_BundleIssued_seLoads : let r (a : Word) : TaskRun := { task := tsk, arch := { ptr := [(0, a)] } }
    let s (a : Word) : State := (stgUp [] { st := .run, tr := some (r a), len := 4 }).setBytes (seBase 1 + 0x2000) [0, 0, 0, 0, 0x23, 0, 0, 0]
    let own (a : Word) : Option (Nat × Bool × Bool × Bool) :=
      match issue (r a).arch ((s a).seEnv 1 (r a)) (r a).lanes (r a).fetches 0 ((s a).dword (seBase 1 + 0x2000)).toNat with
      | .done _ p => p.ma.access.map fun x => (x.addr, seOwn 1 false x.addr x.size, (s a).seWaits 1 p, p.mb.access.isNone && p.ma.wf.isNone)
      | _ => none
    own 0x0604A000 = some (0x0604A000, true, false, true) ∧ own 0x07000000 = some (0x07000000, false, false, true) ∧
    ((s 0x07000000).seServe 1 false 0x07000000 4 0).state.stg 1 = (s 0x07000000).stg 1 := by decide +kernel

/-- A bundle that reads G3 while a fetch to it is outstanding waits; an undefined encoding in trap mode halts. -/
theorem wit_BundleIssued_others : let r (tm : Bool) : TaskRun := { task := { tsk with len := 4 }, fetches := [{ reg := 3, val := 9 }], arch := { tm := tm } }
    let o (tm : Bool) (b : List Byte) : Nat :=
      match issue (r tm).arch ((running b).veEnv 63 (r tm)) (r tm).lanes (r tm).fetches 0 ((running b).veFetch 63 (r tm)) with
      | .wait => 3
      | .halt _ _ _ _ => 4
      | _ => 0
    o false [0, 0, 0, 0, 0, 0, 3, 0x30] = 3 ∧ o true [0xFF, 0xFF, 0xFF, 0xFF, 0xFF, 0xFF, 0xFF, 0xFF] = 4 := by decide +kernel

theorem wit_SlotArithmetic_limit : (2 : Nat) ^ 23 < 2 ^ 24 ∧ (0 : Nat) < 2 ^ 24 := by decide
theorem wit_CoreTraps_stage : let r : TaskRun := { task := { tsk with len := 4 }, pend := .fault 1 2 0x05000000 0x10000 }
    let s := stgUp [(Reg.STG_CTRL 1, 0)] { st := .run, tr := some r }
    (s.stg 1).tr = some r ∧ r.fetches = [] ∧ (s.stg 1).stall = none ∧ (s.stg 1).trap = 0 ∧
    (s.rb (Reg.STG_CTRL 1) 6 = false ∨ s.rb (Reg.STG_CTRL 1) 5 = true) := by decide

theorem wit_SecurityRequests_body : (secUp { quotes := [3] }).sec.quotes.contains 3 = true ∧ Req.ix .se1 = 3 := by decide
theorem wit_SecurityEnds_mkh : ({ mkh := List.replicate 28 1 } : FuseOp).mkh ≠ [] ∧ ({ mkh := [] } : FuseOp).dbgoff = false ∧
    ({ dbgoff := true } : FuseOp).dbgoff = true := by decide
theorem wit_SecurityEnds_entropyEarly : (at_ .waitRecords []).phase = .waitRecords ∧ (at_ .waitRecords []).awake = false ∧
    State.reset.phase ≠ .waitRecords := by decide

/-- The calibration kernel runs; a measurement waits for it, or is still under way. -/
theorem wit_StartUpAndSag_testing : let s (x : Age) : State := { (at_ .selfTest []).setCore 63 { kernel := some 2 } with age := x }
    (s {}).selfTesting = true ∧ (s { awaits := true }).age.awaits = true ∧ (s { measuring := true }).age.measuring = true ∧
    ((s {}).core 63).kernel = some 2 ∧ (at_ .selfTest []).selfTesting = false := by decide
theorem wit_StartUpAndSag_level4 : let o : NvmOp := { op := 1, rid := 64, req := some .hpa, result := 0 }
    let s : State := { up [] with nvm := { op := some o } }
    s.sagMonitor = true ∧ s.sagLevel < 4 ∧ s.ready = true ∧ s.nvm.op = some o ∧ o.op ≠ 3 ∧
    ({ o with op := 3 } : NvmOp).thenOff = false := by decide
theorem wit_NvmOperations_ageh : let o : NvmOp := { op := 1, rid := 64, req := some .hpa, result := 0 }
    let s : State := { up [] with nvm := { op := some o, agehDue := [[1]] } }
    s.nvm.op = some o ∧ s.nvm.agehDue = [1] :: [] ∧ s.phase ≠ .commit ∧ ({ o with moved := true } : NvmOp).moved = true := by decide
theorem wit_AgeingPlanner_selfTest : let s (k : Option Nat) : State :=
      { (at_ .selfTest []).setCore 63 { kernel := k } with age := { measuring := true } }
    (s (some 2)).age.measuring = true ∧ (s (some 2)).selfTesting = true ∧ (s none).selfTesting = false ∧
    (s none).phase = .selfTest := by decide
theorem wit_AgeingPlanner_append : (up []).awake = true ∧ (up []).nvm.op = none ∧ (up []).phase ≠ .commit ∧ State.reset.awake = false ∧
    ({ up [] with nvm := { op := some { op := 2, rid := 64, req := none, result := 0 } } } : State).nvm.op.isSome = true := by decide

/-- REF timer 15's cycles have passed at a strobe. -/
theorem wit_FrameStrobes_ref : let s := { refTimer with refEnd := [(15, 9)], refAll := 9 }
    s.tmrRun 15 = true ∧ s.tmrRef 15 = true ∧ tget 0 s.refEnd 15 ≤ s.refAll := by decide
/-- Slots at the end of block 6: one that has reached its end, one that has not, one whose ramp ends with frame 111. -/
theorem wit_FrameStrobes_slots : ({ state := .active, endBlk := some 6 } : Slot).state = .active ∧ (6 : Nat) ≤ 6 ∧
    ({ state := .starting, firstBlk := 6 } : Slot).firstBlk ≤ 6 ∧ ({ state := .dying, ramp := some (104, 8) } : Slot).ramp = some (104, 8) ∧
    (104 + 8 - 1) / 16 ≤ 6 ∧ ({ dying := true, rampStart := 104, rampLen := 8 } : Tail).dying = true := by decide
/-- Voice 7 lives and is placed; its first block is 6, then it has passed. -/
theorem wit_FrameStrobes_tasks : let x : Slot := { state := .active, firstBlk := 6 }
    let c : Ctx := { placed := true, tasked := some 5 }
    x.state ≠ .free ∧ x.state ≠ .faulted ∧ c.placed = true ∧ c.tasked ≠ some 6 ∧ ¬ (6 : Nat) < x.firstBlk ∧ x.owesFirst = false ∧
    ({ dying := true } : Tail).faulted = false := by decide
/-- Core 63 alone qualifies for program 0, whose context takes 16 blocks. -/
theorem wit_FrameStrobes_place : let s := coreUp [] 0 { st := .idle, resident := [{ prog := 0, base := 0, len := 4 }] }
    let g : Prog := { base := 0, len := 4, cost := 1, kind := 1, mem := 16, trap := 0 }
    s.choosePlace 0 g = some 63 ∧ (s.place 7 0 6 g).isSome = true ∧ (up []).choosePlace 0 g = none ∧
    s.poolRun 63 16 = some (2048 - s.rf Reg.PUP_CTRL 28 24 * 64) ∧ s.poolRun 63 2049 = none := by decide +kernel
theorem wit_FrameStrobes_close : let s := up []
    s.closedRanks 6 = 0 ∧ 0 ≤ s.rmax ∧ ¬ s.rmax < 0 ∧ (s.frame < s.dl 6 0 ∨ s.dl 6 0 ≤ s.frame) := by decide
/-- A node of an undefined kind, one that is written, and a voice whose frame is not published yet. -/
theorem wit_FrameStrobes_nodes : NodeW.zero.bad false = false ∧ ({ NodeW.zero with w0 := 0xF0000000 } : NodeW).bad false = true ∧
    (up []).ctick ≠ 8 ∧ (up []).pubs = [] ∧ ({} : Slot).gates = [] ∧ ({ fresh := false } : Slot).fresh = false := by decide
theorem wit_FrameStrobes_clock : (up []).mck.target = none ∧ (up [(Reg.MCK_CTRL, 0x10)]).rb Reg.MCK_CTRL 4 = true ∧
    ({ st := .free, lockNext := true, target := some 1 } : Mck).target.isSome = true := by decide

/-- One event left of the control tick at 96, its source host A's ring 0. -/
def leftUp (l : List (Nat × Word)) (stamp : Option Nat) (it : Item) : State :=
  { up ([(Reg.EVT_CTRL, 0x3005), (Reg.VAL_CTRL, 1), (Reg.VAL_PART_OWNER 5, 0x40000000)] ++ l) with
    heap := [{ stamp := stamp, src := 0, seq := 0, item := it }], paused := [(96, [0])] }

theorem wit_Publications_left : let s := leftUp [] (some 3) (.native 0x11 5 0 9)
    s.engineRuns = true ∧ s.rb Reg.EVT_CTRL 0 = true ∧ s.listsFull = false ∧
    s.leftOf [0] = [{ stamp := some 3, src := 0, seq := 0, item := .native 0x11 5 0 9 }] ∧
    (Item.native 0x11 5 0 9).part = some 5 ∧ s.ownerFails 0 5 = none := by decide
theorem wit_Publications_dropped : let s := leftUp [(Reg.EVT_SRC_MODE 0, 0x80)] (some 3) (.native 0x01 5 0 9)
    s.rb (Reg.EVT_SRC_MODE 0) 7 = true ∧ (leftUp [(Reg.VAL_CTRL, 0)] none (.native 0x01 5 0 9)).rb (Reg.EVT_SRC_MODE 0) 7 = false := by
  decide
/-- The note 0x77 of part 5 sounds on voice 7. -/
theorem wit_Publications_noteOff : let s := (leftUp [] none (.native 0x02 5 0x77 9)).setSlot 7 { state := .active, part := 5, handle := 0x77 }
    s.valOn = true ∧ s.partMode 5 = 0 ∧ s.offTargets 5 0x77 = [7] ∧ (s.part 5).hold = false ∧ (s.slot 7).state = .active := by
  decide +kernel
theorem wit_Publications_full : let s : State := { leftUp [] none (.midi 0xF8) with
      cores := (List.range 1).map fun n => (n, { st := .idle, list := List.replicate 256 { tsk with ready := true } }), intake := 4096 }
    s.listsFull = true ∧ 4096 ≤ s.intake := by decide +kernel
/-- A publication whose slice has finished its block, in time. -/
theorem wit_Publications_eval : let m : SliceEval := { slice := (pub false).slice, blk := 6, opened := 0, voices := true }
    let s : State := { up [] with pubs := [pub false], evals := [m] }
    s.evals = [m] ∧ m.voices = true ∧ m.blk = s.block ∧ (pub false).words.map (·.1) = [0, 31] := by decide

theorem wit_OutputsAndReferences_port0 : let s := up [(Reg.OUT_TDM_CFG 0, 0xC0A00000)]
    s.engineRuns = true ∧ bit (s.reg (Reg.OUT_TDM_CFG 0)) 31 = true ∧ s.inForce ≠ some 2 ∧ (at_ .sleep []).engineRuns = false := by decide
/-- A write of BAR2 into the register blocks, and past them. -/
theorem wit_Accesses_blocks : let s := (up []).setPort 1 { link := .l0 }
    s.portTakes .b = true ∧ s.posted = [] ∧ s.stalled = [] ∧ 0x07000000 ≤ 0x071FFFFC ∧ 0x071FFFFC + 4 ≤ 0x07200000 ∧
    0x071FFFFC % 4 = 0 := by decide
/-- Transaction 2 holds a node's word in its write set. -/
theorem wit_Accesses_writeSet : let s := (up []).setTxn 2 { st := .pending, entries := [(0x05400000, 0)] }
    s.inWriteSet none 0x05400000 = true ∧ s.arrives .hpa 0x05400000 = true := by decide

/-! ### Witnesses: more clauses of serial ports, rings and ports -/

/-- TXFLUSH empties a queue that waits while the UART is off: vector 19 of host A. -/
theorem wit_UartTransmit_flush : let s := uartUp 0x0C800000 { txq := [1] }
    s.takes .hpa (Reg.UART_CTRL 2) 2 = true ∧ (s.uart 2).sends = false ∧ (s.uart 2).txq ≠ [] ∧
    s.rb (Reg.UART_IEN 2) 3 = true ∧ s.uartDest 2 = 3 ∧ (after (.txflush .hpa 2) s).rb (Reg.HPx_IRQ_STAT 0) 19 = true ∧
    (uartUp 0x8C800000 { cur := some 1 }).takes .hpa (Reg.UART_CTRL 2) 2 = true := by decide
/-- A header waits until the character that a disabled UART was sending has ended. -/
theorem wit_UartTransmit_header : let f : LinFrame := { stage := .header, pid := 0x41 }
    let s := uartUp 0xAC800000 { cur := some 1, frame := some f }
    (uartUp 0xAC800000 { cur := some 1 }).takes .hpa (Reg.UART_FHDR 2) 0x80000001 = true ∧ (s.uart 2).cur.isSome = true ∧
    (s.uart 2).frame = some f ∧ f.onLine = true ∧ f.spent = false ∧ f.stage ≠ .dropped ∧
    ((after (.linHeaderSent 2 (echo 13)) s).uart 2).frame = some f := by decide +kernel
/-- The second data byte of a note-on under running status, and a system byte. -/
theorem wit_UartEntriesTaken_parser : let m : MidiParser := { status := some 0x90, data1 := some 5, sys := none }
    m.sys = none ∧ (0x40 : Byte).toNat < 0x80 ∧ m.parse 0 0x40 = (.packet 0x20900540, { m with data1 := none }) ∧
    (m.parse 0 0xF8).1 = .byte ∧ ({ m with sys := some none } : MidiParser).sys.isSome = true ∧
    (let s := { (up [(Reg.UART_CFG 0, 0x80800000), (Reg.EVT_CTRL, 0x3005)]).setUart 0 { rxq := [0x80000040] } with midi := [(0, m)] }
     (tget ({ status := none } : MidiParser) s.midi 0).parse (s.rf (Reg.EVT_SRC 8) 19 16) ((0x80000040 : Word).extractLsb' 0 8) =
       (.packet 0x20900540, { m with data1 := none })) := by decide

/-- Part 5 is host A's; source 0 takes engine time, source 1 host time, source 2 the moment of arrival. -/
def evtUp (l : List (Nat × Word)) : State :=
  up ([(Reg.EVT_CTRL, 0x3005), (Reg.VAL_PART_OWNER 5, 0x40000000), (Reg.EVT_SRC_MODE 1, 2), (Reg.EVT_SRC_MODE 2, 4)] ++ l)

theorem wit_RingEventCommands_entry : let s := evtUp []
    let it : Item := .native 1 5 0x77 0
    it.part = some 5 ∧ s.rf (Reg.VAL_PART_OWNER 5) 31 30 = 1 ∧ s.rf (Reg.VAL_PART_OWNER 6) 31 30 = 0 ∧
    s.rf (Reg.EVT_SRC_MODE 0) 2 1 = 0 ∧ s.rf (Reg.EVT_SRC_MODE 1) 2 1 = 1 ∧ s.rf (Reg.EVT_SRC_MODE 2) 2 1 = 2 ∧
    s.rb (Reg.EVT_HMAP_STAT 0) 2 = false ∧ s.evtNow + 2 ^ 31 < 2 ^ 40 ∧
    (s.enterItem 0 25600 it).heap.map (·.stamp) = [some 25600] ∧ (s.enterItem 4 25600 it).reg (Reg.EVT_CNT 3) = 1 ∧
    (s.enterItem 0 (2 ^ 40) it).reg (Reg.EVT_CNT 6) = 1 ∧ (s.enterItem 1 0 it).reg (Reg.EVT_CNT 8) = 1 := by decide +kernel
/-- Part map entry of group 0, channel 3: part 5, host A. -/
theorem wit_RingEventCommands_map : let s := evtUp [(Reg.EVT_PARTMAP 3, 0x40010005)]
    let i : Option Item := some (.native 1 5 60 0x78008000)
    bit (s.reg (Reg.EVT_PARTMAP 3)) 16 = true ∧ fld (s.reg (Reg.EVT_PARTMAP 3)) 31 30 = 1 ∧
    ((s.takeUmp 0 0 0x20933C40 0).heap.head?.map (·.item)) = i ∧ ((s.takeUmp 0 0 0x40933C00 0x80000000).heap.head?.map (·.item)) = i ∧
    (s.takeUmp 4 0 0x20933C40 0).reg (Reg.EVT_CNT 1) = 1 := by decide +kernel

/-- Vectors 3 and 25 of port B have their causes set; only vector 3 is not masked. -/
def irqUp (h : HostPort) (pend : BitVec 32) : State :=
  (up [(Reg.HPx_IRQ_STAT 1, 0x02000008), (Reg.MSIX_TABLE 1 15, 0)]).setPort 1 { h with link := .l0, busMaster := true, msixEnable := true, pendVec := pend }

theorem wit_RingEnables_signalled : let s := irqUp {} 0
    s.takes .hpb (Reg.HPx_IRQ_EN 1) 0x3FFFFFF = true ∧ s.msixReady 1 3 = true ∧ s.msixReady 1 25 = false ∧
    (let t := (after (.irqEnableWrite .b 0x3FFFFFF) s).port 1
     t.out = [.msix 3] ∧ t.pendVec = 0x02000000) ∧ s.takes .hpb (Reg.HPx_IRQ_STAT 1) 0x02000000 = true := by decide +kernel
theorem test_pending_cleared : ((after (.registerWrite { accesses := [⟨.hpb, Reg.HPx_IRQ_STAT 1, 4, some 0x02000000⟩] })
    (irqUp {} 0x02000008)).port 1).pendVec = 8 := by decide +kernel
theorem wit_RingTransfers_error : let s := ringUp [(Reg.HPx_RING_DB 0 3, 2)] {}
    let z := s.setPort 0 { s.port 0 with header := [(0x98, 0x10)] }
    (s.ringLive 0 3 && s.portSends 0 && decide (0 < s.fetchRoom 0 3)) = true ∧ (s.port 0).cfgBit 0x98 4 = false ∧
    (z.ringLive 0 3 && z.portSends 0 && decide (0 < z.fetchRoom 0 3)) = true ∧ (z.port 0).cfgBit 0x98 4 = true ∧
    bit ((s.port 0).aerWord 0x10C) 12 = false ∧ bit ((s.port 0).aerWord 0x114) 13 = true := by decide +kernel
/-- The vector of a written completion goes out where its ring's vector is enabled and not masked. -/
theorem wit_RingTransfers_vector :
    let s := (ringUp [(Reg.HPx_IRQ_EN 0, 8), (Reg.MSIX_TABLE 0 15, 0)] { done := [List.replicate 64 0] })
    let t := s.setPort 0 { s.port 0 with msixEnable := true }
    t.portSends 0 = true ∧ 0 < t.cplFree 0 3 ∧ t.vectorOut 0 3 = [.msix 3] ∧ s.vectorOut 0 3 = [] ∧ s.vectorHeld 0 3 = 8 := by
  decide +kernel
theorem wit_PortLinkStates_freed : let s := irqUp { d3hot := true } 0x02000008
    (s.port 1).link.up = true ∧ (s.port 1).d3hot = true ∧
    (let t := (after (.d0Return .b) s).port 1
     t.out = [.msix 3] ∧ t.pendVec = 0x02000000) := by decide +kernel
theorem wit_ConfigurationRequests_freed : let s := (irqUp { msixMaskAll := true } 0x02000008)
    (Instr.configurationRequest .b .msixFunctionMask (some 0)).wf = true ∧ (s.port 1).link.up = true ∧
    ((after (.configurationRequest .b .msixFunctionMask (some 0)) s).port 1).out = [.msix 3] ∧
    (Instr.configurationRequest .b (.header 0x78) (some 0x8000)).wf = true ∧ bit 0x8000 15 = true := by decide +kernel
/-- Port B has a valid mapping, K being K_nom; its reference pair lies a second back. -/
theorem wit_HostTimeMapping_valid :
    let s := ((up [(Reg.EVT_HMAP_CTRL 1, 0x0A02), (Reg.EVT_HMAP_STAT 1, 4), (Reg.MCK_CTRL, 0x115)]).setReg64 (Reg.EVT_HMAP_K 1)
      13510798882).setHm 1 { dialogue := true }
    let j (hns : Dword) : Int := (hns - BitVec.ofInt 64 (((12288000 * 2 ^ 40 + 6755399441) / 13510798882 : Nat) : Int)).toInt
    (s.hm 1).dialogue = true ∧ s.rf (Reg.EVT_HMAP_CTRL 1) 2 1 = 1 ∧ s.rb (Reg.EVT_HMAP_STAT 1) 2 = true ∧
    (s.reg64 (Reg.EVT_HMAP_K 1)).toNat = 13510798882 ∧ -1000000 < j 1000000000 ∧ j 1000000000 < 1000000 ∧
    1000000000 ≤ ((1000000000 : Dword) - (s.hm 1).href).toInt ∧ 1000000 ≤ j 1002000000 ∧ j 998000000 ≤ -1000000 ∧
    (after (.ptmPair .b 1002000000 12288000 true) s).rb (Reg.HPx_IRQ_STAT 1) 15 = true := by decide +kernel
theorem wit_Accesses_d3hot (wr : Bool) : let s := portUp { link := .l0, d3hot := true }
    (s.port 1).link.up = true ∧ (s.port 1).d3hot = true ∧ bit ((s.port 1).aerWord 0x10C) 20 = false ∧
    (⟨wr, 0x1FFFFC, List.replicate 4 (some 0)⟩ : MemReq).ok 0x200000 = true := by cases wr <;> decide

/-! ### Witnesses: more clauses of the cores -/

/-- A second word that an outstanding fetch of Stage Engine 1 has still to read. -/
theorem wit_StageControls_stopFetch : let y : SecondRead := { addr := 0x03FFFFFC, fmt := 0, frac := 0, re := 0, im := 0 }
    let f : Fetch := { reg := 3, val := 9, second := some y }
    let r : TaskRun := { task := tsk, fetches := [f] }
    let s := stgUp [] { st := .run, tr := some r }
    s.takes .hpa (Reg.STG_CTRL 1) 4 = true ∧ (s.stg 1).st.running = true ∧ (s.stg 1).tr = some r ∧ r.fetches = [f] ∧
    f.second = some y ∧ bankOf y.addr = 15 := by decide +kernel

/-- A bundle whose MA slot stores G3, 5, at P0, the start of its region. -/
theorem wit_BundleIssued_stores : let r : TaskRun := { task := { tsk with len := 4 }, arch := { g := [(3, 5)], ptr := [(0, 0x1000)] } }
    let s := (coreUp [] 0 { st := .run, run := some r, resident := [{ prog := 0, base := 0, len := 4 }] }).setBytes (imBase 63) [0, 0, 0, 0, 0x43, 0, 0, 0]
    (match issue r.arch (s.veEnv 63 r) r.lanes r.fetches 0 (s.veFetch 63 r) with
      | .done _ p => (p.ma.access.map fun x => (x.store, x.addr, x.size, x.data), p.mb.access)
      | _ => (none, none)) = (some (true, 0x1000, 4, 5), none) := by decide +kernel

/-- P0 with a modulo range of 256 bytes at 0x200: +4 wraps; and a pointer without a range. -/
theorem wit_SlotArithmetic_memory : let a : Arch := { g := [(3, 5)], ptr := [(0, 0x2FC), (8, 0x200), (16, 0x100), (1, 0x40), (25, 8)] }
    let r : TaskRun := { task := { tsk with len := 4 } }
    let e := (running []).veEnv 63 r
    (a.px 2 0).toNat ≠ 0 ∧ (a.px 1 0).toNat + (a.px 2 0).toNat ≤ 2 ^ 32 ∧ (a.px 2 1).toNat = 0 ∧
    (maSlot a e (1024 + 3 * 32 + 1)).fx.ptr = [(0, 0x200)] ∧ (mbSlot a e (2 * 1024 + 3 * 32 + 4 + 2)).fx.ptr = [(1, 0x48)] ∧
    (mbSlot a e (2 * 1024 + 3 * 32 + 4 + 2)).access.map (·.data) = some 5 ∧ e.pfrOk = true ∧ e.se = false ∧
    ({ e with pfrOk := false, se := true } : Env).se = true := by decide +kernel
theorem wit_SlotArithmetic_wave : let y : WaveFetch := { d := 3, fmt := 0, interp := true, len := 4, base := 0x100, i := 15, f := 2 ^ 31 }
    y.fmt < 2 ∧ y.addrs = [0x11E, 0x100] ∧ (y.start [3] 0x7FFF 0 none).val = 0x3FFF8000 := by decide
/-- A lane configured for G255's SEND 2 with gain 1/2. -/
theorem wit_SlotArithmetic_send : let lane : Lane := { bus := 255, gain := 0x40000000 }
    ([(2, lane)] : Tbl Lane).find? (fun c => c.1 == 2) = some (2, lane) ∧
    ((7 : Int) * (0x40000000 : Word).toInt + 2 ^ 30) / 2 ^ 31 = 4 ∧
    ((lanesAfter none 6 [(2, lane)] { send := some (2, 7) } .none).find? (fun c => c.1 == 2)).map (fun c => c.2.frames) = some [4] := by
  decide
/-- A branch back by one that is taken, one in a delay slot, one outside the program's first bundle; a loop of no pass. -/
theorem wit_SlotArithmetic_flow : let a : Arch := { g := [(3, 9)], loops := [] }
    let r : TaskRun := { task := { tsk with len := 4 } }
    let e := (running []).veEnv 63 r
    (fSlot a 5 false (2048 + 14 * 128 + 127)).flow = .branch (some 4) ∧ fSlot a 5 true (2048 + 14 * 128 + 127) = { holds := true } ∧
    a.loops.length ≤ 4 ∧ a.tm = false ∧ ({ tm := true } : Arch).tm = true ∧ bit a.sr 22 = false ∧
    (longSlot a e 5 false (4 * 2 ^ 19 + 3 * 2 ^ 14 + 2)).flow = .loop 7 9 ∧
    (longSlot a e 5 false (4 * 2 ^ 19 + 4 * 2 ^ 14 + 2)).flow = .skip 8 := by decide +kernel
/-- Two loops that end with the bundle at 7; a forced successor; a return from a trap. -/
theorem wit_SlotArithmetic_after : let l (c : Nat) : Loop := { start := 6, last := 7, count := c, inTrap := false }
    let a (c : Nat) : Arch := { pc := 7, loops := [l c, { start := 3, last := 7, count := 2, inTrap := false }] }
    let p (f : Flow) : Slots := ⟨false, false, {}, {}, {}, { flow := f }⟩
    ((a 2).after (p .none) 0).pc = 6 ∧ ((a 1).after (p .none) 0).pc = 3 ∧ ((a 1).after (p .none) 0).loops.map (·.count) = [1] ∧
    (({ a 2 with pos := { forced := some (9, false) } }).after (p .none) 0).pc = 9 ∧
    (({ a 2 with pos := { delay := some (some 1) } }).after (p .none) 0).pc = 1 ∧
    (let t : Arch := { pc := 2, tm := true, tpc := 5, tnpc := 6, twp := 7, tcause := 0x10000000, loops := [l 1] }
     let u := t.after (p .rte) 3
     t.pos = {} ∧ (∀ x ∈ t.loops, x.last ≠ t.pc ∨ x.inTrap = false) ∧ u.pc = 5 ∧ u.wp = 3 ∧ u.tm = false ∧
      u.pos.forced = some (6, true)) := by decide +kernel

/-! ### Witnesses: more clauses of security, start-up and non-volatile memory -/

/-- The key of an OPEN device is being burnt. -/
theorem wit_SecurityEnds_lost : let s : State := { opened with sec := { opened.sec with fuseOp := some { mkh := toLE 5 28 } } }
    s.sec.fuseOp = some { mkh := toLE 5 28 } ∧ toLE 5 28 ≠ [] ∧ s.life = .opened := by decide +kernel
theorem wit_StartUpAndSag_clear : let s : State := { at_ .waitCrystal [] with clrPin := false }
    s.variant = .f ∧ s.clrPin = false ∧ s.clrSeen = true ∧ (at_ .waitCrystal []).clrPin = (at_ .waitCrystal []).clrSeen := by decide
/-- A WRITE of record 64 marked for slot A with SEQ 1 while slot B is no record. -/
theorem wit_NvmOperations_slot : let r := (recordOf 64).getD ⟨0, 0, 0⟩
      let o : NvmOp := { op := 1, rid := 64, req := some .hpa, result := 0, data := [1, 2, 3, 4, 5, 6, 7, 8], slot := r.slotA, seq := 1 }
      let s : State := { up [] with nvm := { op := some o } }
      recordOf 64 = some r ∧ s.nvm.agehDue = [] ∧ s.phase ≠ .commit ∧ o.moved = false ∧ o.op ≠ 2 ∧ o.data.length ≤ r.capacity ∧ o.seq < 2 ^ 48 ∧
        o.owner < 4 ∧ s.slotValid 64 r r.slotB = false := by decide +kernel

/-! ### Witnesses: more clauses of the allocator, the fabric and publications -/

/-- Part 5 plays program 0; core 63 takes contexts of it. -/
def noteUp (l : List (Nat × Word)) : State :=
  let g : Prog := { base := 0, len := 4, cost := 1, kind := 1, mem := 16, trap := 0 }
  { up ([(Reg.EVT_CTRL, 0x3005), (Reg.VAL_CTRL, 3), (Reg.VAL_PART_OWNER 5, 0x40000000), (Reg.VAL_PART_PROG 5, 0x80000000),
        (Reg.VAL_PART_QUOTA 5, 0x00100000), (Reg.PUP_CTRL, 0x18020003)] ++ l) with
    progs := [(0, g)], budget := 100, cores := [(63, { st := .idle, resident := [{ prog := 0, base := 0, len := 4 }] })]
    heap := [{ stamp := none, src := 0, seq := 0, item := .native 0x01 5 0x77 0x3C008000 }], paused := [(96, [0])] }

def note : Note := { part := 5, handle := 0x77, pitch := 0x3C00, vel := 0x8000, onset := 25600 }

/-- The hypotheses of the NOTE_ON clause: what the part, the quotas, the cost and the placement ask. -/
theorem wit_Publications_noteOn : let s := noteUp []
    let g : Prog := { base := 0, len := 4, cost := 1, kind := 1, mem := 16, trap := 0 }
    s.engineRuns = true ∧ s.rb Reg.EVT_CTRL 0 = true ∧ s.listsFull = false ∧
    s.leftOf [0] = [{ stamp := none, src := 0, seq := 0, item := .native 0x01 5 0x77 0x3C008000 }] ∧ s.ownerFails 0 5 = none ∧
    s.valOn = true ∧ s.notesRefused = false ∧ s.partProgram 5 = some (0, g) ∧ s.partMode 5 = 0 ∧
    s.rf (Reg.VAL_PART_CFG 5) 22 19 = 0 ∧ (s.voicesWhere 5 fun x => decide (x.handle = 0x77) && x.state.sounding) = [] ∧
    s.live 5 < s.notesMax 5 ∧ s.slotsUsed < s.slotLimit ∧
    (s.live 5 < s.quotaMin 5 ∨ s.reserve 5 < s.slotLimit - s.slotsUsed) ∧ s.admits g none = true ∧
    (s.choosePlace 0 g).isSome = true ∧ s.lowestFree = some 0 := by decide +kernel

/-- Program 0. -/
def prog0 : Prog := { base := 0, len := 4, cost := 1, kind := 1, mem := 16, trap := 0 }

/-- Voice v of part p in a slot, its context on core 63. -/
def withVoice (s : State) (v p : Nat) (x : Slot) : State :=
  (s.setSlot v { x with part := p }).setCtx v { placed := true, ve := 63, base := 64 + 16 * v, size := 16, cost := 1, epoch := 9 }

/-- A part's voices: 7, released at tick 512, and 9, active, with the lower pitch. -/
theorem wit_Publications_victim : let s := withVoice (withVoice (noteUp []) 7 5 { state := .released, gateOff := some 512, pitch := 9 }) 9 5 { state := .active, grantTime := 3, pitch := 4 }
    (s.voicesWhere 5 fun x => x.state.candidate) ≠ [] ∧ (s.voicesWhere 5 fun x => decide (x.state = .released)) = [7] ∧
    s.chooseVictim 5 0 = some 7 ∧ s.chooseVictim 5 2 = some 7 ∧ s.chooseVictim 5 1 = some 7 ∧ s.chooseVictim 5 3 = some 9 ∧
    s.chooseVictim 5 4 = some 7 ∧ s.chooseVictim 6 0 = none := by decide +kernel
/-- A steal to tail slot 0; without TAILEN a cut whose ramp stands in block 6. -/
theorem wit_Publications_retire : let s := withVoice (noteUp []) 7 5 { state := .active }
    let z : State := { s.setReg Reg.VAL_CTRL 1 with col := { s.col with kept := [(7, (5, [(0, 0x1000)]))], settings := [(6 * 256, 0x40000000)] } }
    s.rb Reg.VAL_CTRL 1 = true ∧ s.admitsTail prog0 = true ∧ s.freeTailSlot = some 0 ∧ ((s.retire 7 25600 prog0).tail 0).dying = true ∧
    z.rb Reg.VAL_CTRL 1 = false ∧ z.stealBlock 7 = z.block ∧ z.block = 6 ∧ tget (0, []) z.col.kept 7 = (6 - 1, [(0, 0x1000)]) ∧
    z.laneAllowed (BitVec.ofNat 16 7) 5 6 0 = true := by decide +kernel
/-- No slot is left for part 5 beside the reserve of part 3: part 4 of lower priority yields, then part 5 itself. -/
theorem wit_Publications_yields : let l := [(Reg.VAL_PART_QUOTA 3, 0x3FFF), (Reg.VAL_PART_CFG 5, 0x10040000)]
    let s := withVoice (noteUp l) 7 4 { state := .active }
    let z := withVoice (noteUp l) 7 5 { state := .active }
    s.live 5 < s.notesMax 5 ∧ 4 ∈ s.partsByPrio ∧ s.quotaMin 4 < s.live 4 ∧ s.rb (Reg.VAL_PART_CFG 5) 18 = true ∧
    s.partPrio 4 < s.partPrio 5 ∧ s.victimPolicy 4 ≠ 5 ∧ s.chooseVictim 4 (s.victimPolicy 4) = some 7 ∧ s.admits prog0 (some 7) = true ∧
    s.placeable 0 prog0 (some 7) (s.toTail prog0) = true ∧ ¬ s.reserve 5 < s.slotLimit - s.slotsUsed ∧
    (s.getSlot 5 0 prog0 25600).slot = some 7 ∧ (z.getSlot 5 0 prog0 25600).slot = some 7 ∧
    ((noteUp l).getSlot 5 0 prog0 25600).slot = none := by decide +kernel
theorem wit_Publications_grant : let s := noteUp []
    (s.place 0 0 (note.onset / 4096) prog0).isSome = true ∧ (s.getSlot 5 0 prog0 25600).slot = some 0 ∧
    s.rf (Reg.VAL_PART_CFG 5) 22 19 + 1 = 1 := by decide +kernel

/-- Part 5 is mono, or legato, and one voice sounds. -/
def monoUp (mode : Word) (x : Slot) (stack : List (BitVec 16 × BitVec 16 × BitVec 16)) : State :=
  (withVoice (noteUp [(Reg.VAL_PART_CFG 5, mode)]) 7 5 x).setPart 5 { stack := stack }

theorem wit_Publications_mono : let s (x : SlotState) := monoUp 0x00800000 { state := x, handle := 3 } []
    (s .active).partMode 5 = 1 ∧ (monoUp 0x01000000 {} []).partMode 5 = 2 ∧ (s .active).notesRefused = false ∧
    (s .active).partProgram 5 = some (0, prog0) ∧
    ((s .active).voicesWhere 5 fun x => decide (x.handle = note.handle) && x.state.sounding) = [] ∧
    ((s .active).voicesWhere 5 fun x => decide (x.state = .active)) = [7] ∧
    ((s .active).voicesWhere 5 fun x => decide (x.state = .starting)) = [] ∧
    ((s .starting).voicesWhere 5 fun x => decide (x.state = .starting)) = [7] ∧
    (let a := (s .active).setPart 5 { stack := [(note.handle, note.pitch, note.vel)] }
     (s .active).partSteal 5 ≠ 5 ∧ a.admits prog0 (some 7) = true ∧ a.placeable 0 prog0 (some 7) (a.toTail prog0) = true) := by
  decide +kernel
theorem wit_Publications_takeOver : let s := (monoUp 0x00800000 { state := .starting, handle := 3 } []).setCtx 7 { placed := true, ve := 63, epoch := 9, tasked := some 6 }
    s.voicesWhere 5 (fun x => x.state.sounding) = [7] ∧ (s.ctx 7).tasked = some s.block ∧ s.voiceQueued 7 = false ∧
    (s.ctx 7).past = [] ∧ (State.takeOver note s 7).epochFor 7 6 = 10 := by decide +kernel
/-- The sounding handle 3 is released while handle 4 is held. -/
theorem wit_Publications_held : let s (mode : Word) := monoUp mode { state := .active, handle := 3 } [(3, 0, 0), (4, 1, 1)]
    let z := monoUp 0x00800000 { state := .active, handle := 4 } [(3, 0, 0), (4, 1, 1)]
    (s 0x00800000).partMode 5 = 1 ∧ (s 0x01000000).partMode 5 = 2 ∧ (s 0x00800000).soundingHandle 5 = some 3 ∧
    (((s 0x00800000).part 5).stack.filter fun e => decide (e.1 ≠ 3)) = [(4, 1, 1)] ∧ z.soundingHandle 5 ≠ some 3 ∧
    (s 0x00800000).notesRefused = false ∧ (s 0x00800000).partProgram 5 = some (0, prog0) ∧
    ((monoUp 0x00800000 {} [(3, 0, 0)]).part 5).stack.filter (fun e => decide (e.1 ≠ 3)) = [] := by decide +kernel

/-- An older publication of voice 8,191 has been put off and no task reads its frame any more; one is held for a copy. -/
theorem wit_Publications_overdue : let o : PubFrame := { pub true with blk := 5, frameNo := 0, loose := true }
    let h : PubFrame := { pub false with heldForCopy := true }
    let s : State := { up [] with pubs := [o, pub false] }
    let z : State := { up [] with pubs := [h] }
    s.overdue 8191 = [o] ∧ s.hasTurn (pub false) = true ∧ s.frameRead 8191 6 1 (s.ctx 8191).ve = false ∧ o.blk < (pub false).blk ∧
    (s.ctx 8191).pubBlk = none ∧ o.frameNo ≤ 1 ∧ (pub false).frameNo ≤ 1 ∧
    s.pubs.find? (fun q => decide (q.voice = 8191) && !(q.heldForCopy && q.loose) && !q.deferred) = some (pub false) ∧
    z.pubs.find? (fun q => decide (q.voice = 8191) && !(q.heldForCopy && q.loose) && !q.deferred) = some h ∧
    z.hasTurn h = true := by decide +kernel
/-- A strobe that opens a block with one control tick of 32 frames. -/
theorem wit_FrameStrobes_tick : let s := up [(Reg.EVT_CTRL, 0x3205), (Reg.MOD_CTRL, 1)]
    s.rb Reg.MOD_CTRL 0 = true ∧ s.ctick ≠ 8 ∧ 0 < s.ctick ∧ s.ticksAt 96 = [96] ∧ s.clocked = true ∧ s.now = some 100 ∧
    s.phase = .run ∧ s.mck.ratePend = none := by decide +kernel

end Sys2Proof.Tests
end

section
/-! PROOFS. The scope of the block (R9 to R20): the state after reset, device memory, the stored word of a register after a
write, and the reads that act. -/

namespace Sys2Proof.Machine

/-! ### The state after reset -/

/-- Settles O3: the reset state lists nothing, so every lookup in it gives the default of its table. -/
theorem resetState : Obligations.ResetState := by
  unfold Obligations.ResetState
  refine ⟨rfl, rfl, rfl, fun a => ?_, fun a => ?_, rfl, fun v => ?_, fun t => ?_, fun n => ?_, fun i => ?_, fun p => ?_,
    rfl, rfl, rfl⟩
  · exact tget_nil (powerOnWord State.reset.variant a) a
  · exact tget_nil (0 : Byte) a
  · exact congrArg Slot.state (tget_nil ({} : Slot) v)
  · exact congrArg Tail.dying (tget_nil ({} : Tail) t)
  · exact tget_nil (none : Option Req) n
  · exact congrArg Txn.st (tget_nil ({} : Txn) i)
  · exact congrArg HostPort.link (tget_nil ({} : HostPort) p)

/-! ### Device memory -/

/-- A store of a word puts its byte `i` at the address `a + i` (R11). -/
theorem setWord_byte_within (s : State) (a : Nat) (w : Word) {i : Nat} (hi : i < 4) :
    (s.setWord a w).byte (a + i) = w.extractLsb' (8 * i) 8 := by
  unfold State.setWord
  match i, hi with
  | 0, _ =>
    rw [setByte_byte_other _ (by omega), setByte_byte_other _ (by omega), setByte_byte_other _ (by omega)]
    exact setByte_byte_same ..
  | 1, _ => rw [setByte_byte_other _ (by omega), setByte_byte_other _ (by omega), setByte_byte_same]
  | 2, _ => rw [setByte_byte_other _ (by omega), setByte_byte_same]
  | 3, _ => rw [setByte_byte_same]

/-- What the power-down leaves of memory is in canonical form: it only drops bytes. -/
theorem powerDown_wf {s : State} (h : Memory.wf s.mem = true) : Memory.wf s.powerDown.mem = true :=
  twf_filter (fun _ => (0 : Byte)) h _

/-- Settles O7: each operation comes down to stores of single bytes, clears and filters, which all keep the canonical form. -/
theorem deviceMemory : Obligations.DeviceMemory := by
  unfold Obligations.DeviceMemory
  refine ⟨fun s h => ⟨setByte_wf h, setWord_wf h, setDword_wf h, fun a l => setBytes_wf l h a, clearBytes_wf h,
    copyBytes_wf h, powerDown_wf h⟩, fun s a c b w => ⟨?_, ?_, ?_, ?_, ?_⟩⟩
  · exact setByte_byte_same s a b
  · exact fun hc => setByte_byte_other s hc b
  · exact setWord_word_same s a w
  · exact fun i hi => setWord_byte_within s a w hi
  · exact fun hc => setWord_byte_other s hc w

/-! ### Register words -/

/-- A bit of the stored word: `rw` selects between the old and the written bit, then w1c clears and w1s sets. -/
theorem getLsbD_mergeWord (h : RegHit) (old w : Word) {i : Nat} (hi : i < 32) :
    (mergeWord h old w).getLsbD i =
      ((((old.getLsbD i && !(h.bitsOf .rw).getLsbD i) || (w.getLsbD i && (h.bitsOf .rw).getLsbD i)) &&
        !(w.getLsbD i && (h.bitsOf .w1c).getLsbD i)) || (w.getLsbD i && (h.bitsOf .w1s).getLsbD i)) := by
  simp only [mergeWord, BitVec.getLsbD_or, BitVec.getLsbD_and, BitVec.getLsbD_not, hi, decide_true, Bool.true_and]

/-- Settles O8: a bit written 0 clears and sets nothing, so only rw decides it; for a bit written 1, w1s comes before w1c,
and w1c before rw. -/
theorem storedWordFollowsAccessCodes : Obligations.StoredWordFollowsAccessCodes := by
  unfold Obligations.StoredWordFollowsAccessCodes
  intro h old w i
  rcases Nat.lt_or_ge i 32 with hi | hi
  · rw [getLsbD_mergeWord h old w hi]
    cases w.getLsbD i with
    | false => cases (h.bitsOf .rw).getLsbD i <;> simp
    | true =>
      cases (h.bitsOf .w1s).getLsbD i with
      | true => simp
      | false =>
        cases (h.bitsOf .w1c).getLsbD i with
        | true => simp
        | false => cases (h.bitsOf .rw).getLsbD i <;> simp
  · simp [BitVec.getLsbD_of_ge _ _ hi]

/-! ### Reads that act -/

section
variable {s : State} {q : Req} {a : Nat} {h : RegHit}

/-- A latch of one requester is no latch of another: the keys of a requester fill a range of their own (R16). -/
theorem latchKey_ne {o : Req} {b c : Nat} (ho : o ≠ q) (hb : b < 2 ^ 32) (hc : c < 2 ^ 32) :
    latchKey o b ≠ latchKey q c := by
  have hix : Req.ix o ≠ Req.ix q := by
    cases o <;> cases q <;> simp_all [Req.ix]
  unfold latchKey
  omega

/-- The end of the register blocks lies far below 2 ^ 32 (R7). -/
theorem addr_lt_of_isCsr (hc : isCsr a = true) : a < 0x07200000 := by
  simp only [isCsr, Bool.and_eq_true, decide_eq_true_eq] at hc
  exact hc.2

/-- A whole word of the register blocks can be accessed. -/
theorem accessOk_word (hc : isCsr a = true) : accessOk a 4 = true := by
  simp only [isCsr, Bool.and_eq_true, decide_eq_true_eq] at hc
  simp [accessOk, sizeOk, hc]

/-- A whole read of a defined, readable word that no rule refuses gives the value of the word, and does what its read does. -/
theorem regRead_readable (hr : s.arrives q a = true) (hc : isCsr a = true) (ha : a % 4 = 0) (hf : findReg a = some h)
    (h0 : readCause q h = 0) (hd : s.readable h = true) :
    s.regRead q a 4 = { (s.readWord q h a).2 with resp := { value := (s.readWord q h a).1.setWidth 64 } } := by
  have hw : s.regReadWord q a false = ((s.readWord q h a).1, 0, (s.readWord q h a).2) := by
    simp [State.regReadWord, hf, h0, hd]
  rw [regRead_word hr hc ha, hw]
  simp [State.refuse]

/-- LATCHED_READ of a whole register word is that read. -/
theorem exec_latchedRead_word (hc : isCsr a = true) :
    exec (.latchedRead q a 4) s = .next { s.regRead q a 4 with pending := s.pending } := by
  show doneIf (accessOk a 4) _ s (s.regRead q a 4) = _
  rw [accessOk_word hc, doneIf_true]

/-- CLEAR_ON_READ of a whole register word is that read. -/
theorem exec_clearOnRead_word (hc : isCsr a = true) :
    exec (.clearOnRead q a 4) s = .next { s.regRead q a 4 with pending := s.pending } := by
  show doneIf (accessOk a 4) _ s (s.regRead q a 4) = _
  rw [accessOk_word hc, doneIf_true]

variable (hv : hiddenFrom q h a = false) (n1 : h.name ≠ .SEM_TRY) (n2 : h.name ≠ .UART_RXD) (n3 : h.name ≠ .TMR_COUNT)
include hv n1 n2 n3

/-- The lower word of an rl register reads its lower half, and the reader's latch takes the upper half (R16). -/
theorem readWord_lower (hl : h.latches = true) (hu : h.upper = false) :
    s.readWord q h a = (((s.wideNow q h).getD (s.reg64 a)).setWidth 32,
      { s with latch := tput 0 s.latch (latchKey q (a + 4)) ((((s.wideNow q h).getD (s.reg64 a)) >>> 32).setWidth 32) }) := by
  simp [State.readWord, hv, hl, hu]

/-- The upper word of an rl register reads what the reader has latched, and the read does nothing (R16, R248). -/
theorem readWord_upper (hl : h.latches = true) (hu : h.upper = true) :
    s.readWord q h a = (if s.veiled q h then 0 else tget 0 s.latch (latchKey q a), s) := by
  simp [State.readWord, hv, hl, hu]

/-- A word with rc fields reads its value, its write-only bits as zero, and the read clears the rc fields (R14). -/
theorem readWord_clears (hb : h.bitsOf .rc ≠ 0) (hw : h.wide = false) :
    s.readWord q h a = (s.wordNow q h a &&& ~~~ h.bitsOf .wo, s.setReg a (s.reg a &&& ~~~ h.bitsOf .rc)) := by
  have hl : h.latches = false := by simp [RegHit.latches, hw]
  simp only [State.readWord, hv, hl, hw, if_neg hb, Bool.false_eq_true, if_false]

end

/-- Settles O11: such a read is one read of the word, and each kind of register has its case of it. -/
theorem readEffects : Obligations.ReadEffects := by
  unfold Obligations.ReadEffects
  intro q a h s hr hc ha hf n1 n2 n3 h0 hd hv
  have hread := regRead_readable hr hc ha hf h0 hd
  refine ⟨fun hl hu => ?_, fun hl hu => ?_, fun hb hw => ?_⟩
  · have hx := exec_latchedRead_word (s := s) (q := q) hc
    rw [hread, readWord_lower hv n1 n2 n3 hl hu] at hx
    refine ⟨_, hx, rfl, tget_tput_same .., fun o b ho hb => tget_tput_other _ _ _ ?_⟩
    have := addr_lt_of_isCsr hc
    exact latchKey_ne ho hb (by omega)
  · rw [exec_latchedRead_word hc, hread, readWord_upper hv n1 n2 n3 hl hu]
  · rw [exec_clearOnRead_word hc, hread, readWord_clears hv n1 n2 n3 hb hw]
    rfl

end Sys2Proof.Machine
end

section
/-! PROOFS. The end of a task (R365 to R368, R374): how lanes are added into a bus, what the judging of a contribution
changes, and a contribution for which the statement of a task's end fails. -/

namespace Sys2Proof.Machine

variable (s : State)

/-! ### The sums of the buses (R368) -/

/-- The frame to which a term is added holds the sum, and every other frame of the bus what it held. -/
theorem addBus_bus (k b i j : Nat) (x : Int) :
    (s.addBus k b i x).bus k b j = s.bus k b j + if i = j then x else 0 := by
  by_cases h : i = j
  · subst h
    rw [if_pos rfl]
    exact tget_tput_same ..
  · rw [if_neg h, Int.add_zero]
    refine tget_tput_other _ _ _ fun hk => h ?_
    unfold accKey at hk
    omega

/-- A loop that adds a term to each frame of a range adds to a frame of the range its own term. -/
theorem iter_addBus_bus (k b j : Nat) (f : Nat → Int) (n a : Nat) (t : State) :
    (iter (fun i t => t.addBus k b i (f i)) a n t).bus k b j = t.bus k b j + if a ≤ j ∧ j < a + n then f j else 0 := by
  induction n generalizing a t with
  | zero => rw [if_neg (by omega), Int.add_zero]; rfl
  | succ n ih =>
    show (iter (fun i t => t.addBus k b i (f i)) (a + 1) n (t.addBus k b a (f a))).bus k b j = _
    rw [ih, addBus_bus]
    by_cases h : a = j
    · subst h
      rw [if_pos rfl, if_neg (by omega), if_pos (by omega), Int.add_zero]
    · rw [if_neg h, Int.add_zero]
      by_cases hj : a + 1 ≤ j ∧ j < a + 1 + n
      · rw [if_pos hj, if_pos (by omega)]
      · rw [if_neg hj, if_neg (by omega)]

/-- Each of the 16 frames of a lane is added exactly into its frame of the bus (R368). -/
theorem addLane_bus (k b : Nat) (frames : List Word) {j : Nat} (hj : j < 16) :
    (s.addLane k b frames).bus k b j = s.bus k b j + (frames.getD j 0).toInt := by
  unfold State.addLane
  rw [iter_addBus_bus, if_pos (by omega)]

/-! ### Closing ranks adds to no bus (R374, R377) -/

theorem setCore_bus (n : Nat) (c : Core) (k b j : Nat) : (s.setCore n c).bus k b j = s.bus k b j := rfl

theorem setWord_col (a : Nat) (w : Word) : (s.setWord a w).col = s.col := rfl

theorem writeInput_col (k t i : Nat) : (State.writeInput k t i s).col = s.col := by
  unfold State.writeInput
  exact iter_keeps (fun u : State => u.col = s.col) _ (fun _ u hu => (setWord_col u _ _).trans hu) 16 0 s rfl

theorem writeInputs_col (k t n i : Nat) : (iter (State.writeInput k t) i n s).col = s.col :=
  iter_keeps (fun u : State => u.col = s.col) _ (fun i u hu => (writeInput_col u k t i).trans hu) n i s rfl

theorem reportInputs_col (k t : Nat) : (State.reportInputs k s t).col = s.col :=
  (setCore_col (iter (State.writeInput k t) 0 4 s) _ _).trans (writeInputs_col ..)

theorem closeRank_acc (k : Nat) : (s.closeRank k).col.acc = s.col.acc :=
  foldl_keeps (fun u : State => u.col.acc = s.col.acc) _ (fun u t hu => by rw [reportInputs_col]; exact hu) _ _ rfl

theorem closeDue_acc (k fuel : Nat) : (State.closeDue k fuel s).col.acc = s.col.acc := by
  induction fuel generalizing s with
  | zero => rfl
  | succ fuel ih =>
    unfold State.closeDue
    simp only
    split
    · rfl
    · split
      · rw [ih, closeRank_acc]
      · rfl

theorem closeBuses_acc : s.closeBuses.col.acc = s.col.acc := by
  refine iter_keeps (fun u : State => u.col.acc = s.col.acc) _ (fun i u hu => ?_) 6 0 s rfl
  split
  · rw [closeDue_acc]; exact hu
  · exact hu

theorem stampAll_col : s.stampAll.col = s.col := by
  unfold State.stampAll
  exact foldl_keeps (fun u : State => u.col = s.col) _ (fun u n hu => (setCore_col u n _).trans hu) _ s rfl

/-- The ranks that a task's end closes early change no sum of a bus. -/
theorem closeEarly_bus (k b j : Nat) : s.closeEarly.bus k b j = s.bus k b j := by
  unfold State.closeEarly State.bus
  rw [stampAll_col, closeBuses_acc]

/-! ### What the judging of a contribution changes in the registers -/

theorem portWait_only : s.portWait = { s with csr := s.portWait.csr, draw := s.draw + 1 } := by
  unfold State.portWait
  simp only
  rw [peak_only]
  rfl

@[simp] theorem portWait_col : s.portWait.col = s.col := by
  rw [portWait_only]

theorem colFlag_only (n : Nat) : s.colFlag n = { s with csr := (s.colFlag n).csr, ports := (s.colFlag n).ports } := by
  unfold State.colFlag
  rw [causeBoth_only]; rfl

theorem peak_reg_other {a b : Nat} (h : b ≠ a) (hi lo v : Nat) : (s.peak a hi lo v).reg b = s.reg b := by
  simp only [State.peak]
  split
  · exact setReg_reg_other s h _
  · rfl

/-- The time at the port is noted in COL_DRAIN alone. -/
theorem portWait_reg_other {a : Nat} (h : a ≠ Reg.COL_DRAIN) : s.portWait.reg a = s.reg a := by
  unfold State.portWait
  simp only
  rw [peak_reg_other _ h]
  exact setReg_reg_other _ h _

/-- A flag of COL_STAT changes COL_STAT and the ports' cause registers alone. -/
theorem colFlag_reg_other (n : Nat) {a : Nat} (h : 0x07030000 ≤ a) (ha : a ≠ Reg.COL_STAT) :
    (s.colFlag n).reg a = s.reg a := by
  unfold State.colFlag
  rw [causeBoth_reg_other _ _ _ (.inr h)]
  exact orReg_reg_other _ ha _

/-- A lane of a voice may feed a bus of rank 0 that the owner of the voice's part owns (R366, R367). -/
theorem laneAllowed_voice {tag : BitVec 16} (h : tagKind tag = 0) (part k b : Nat) :
    s.laneAllowed tag part k b =
      (decide (fld (s.reg (Reg.VAL_PART_OWNER part)) 31 30 ≠ 0) &&
        decide (fld (tget 0 s.col.settings (k * 256 + b)) 31 30 = fld (s.reg (Reg.VAL_PART_OWNER part)) 31 30) &&
        decide (fld (tget 0 s.col.settings (k * 256 + b)) 2 0 = 0)) := by
  simp only [State.laneAllowed, State.tagOwner, State.busOwner, State.busRank, State.busSet, State.rf, h]
  rfl

/-- A voice's contribution that is accepted is marked, and the last values of its lanes are kept (R366, R382). -/
def State.markVoice (s : State) (x : Contribution) : State :=
  { s with col := { s.col with
      accepted := (tagCtx x.tag, x.blk) :: s.col.accepted
      kept := tput (0, []) s.col.kept (tagCtx x.tag) (x.blk, x.lanes.map fun l => (l.1, l.2.getD 15 0)) } }

/-- A voice's contribution of the right epoch, the first one and in time, is marked and its lanes are judged (R366). -/
theorem acceptContribution_voice {x : Contribution} (hk : tagKind x.tag = 0)
    (he : x.epoch = s.epochFor (tagCtx x.tag) x.blk) (ha : (tagCtx x.tag, x.blk) ∉ s.col.accepted)
    (hc : s.stageClosed x.tag x.blk = false) : s.acceptContribution x = (s.markVoice x).addLanes x := by
  simp [State.acceptContribution, State.markVoice, hk, he, ha, hc]

/-- A contribution is delivered in its turn at the port: it is judged, marked, and ranks close early. -/
theorem veDeliver_ended {n : Nat} {r : TaskRun} {x : Contribution} (hr : (s.core n).run = some r) (hx : r.ended = some x)
    (hd : r.delivered = false) (hf : r.fetches = []) (hp : s.portTaken n = false) :
    s.veDeliver n = ((s.portWait.acceptContribution x).setCore n
      { s.core n with run := some { r with delivered := true } }).closeEarly := by
  simp [State.veDeliver, hr, hx, hd, hf, hp]

/-- In the running device CONTRIBUTION_ACCEPT delivers the contribution at the core's port. -/
theorem exec_contributionAccept (n : Fin 64) (h : s.engineRuns = true) :
    exec (.contributionAccept n) s = done s (s.veDeliver n.val) := by
  show done s (s.whenRunning (s.veDeliver n.val)) = _
  rw [State.whenRunning, if_pos h]

/-! ### A part whose owner is read in COL_CNT 2 -/

/-- Two lanes of voice 0 for bus 1, of a part for which VAL_PART_OWNER would stand where COL_CNT 2 does. -/
def strayContribution : Contribution :=
  { tag := 0, epoch := 0, blk := 0, part := 0x13C0A, lanes := [(1, [1]), (1, [1])] }

/-- The task of voice 0 that has met TEND with these lanes. -/
def strayRun : TaskRun :=
  { task := { tag := 0, level := 2, blk := 0, prog := 0, region := 0, size := 0 }, ended := some strayContribution }

/-- Core 0 runs it, host A owns bus 1, and the next rule break carries COL_CNT 2 into its bits 31 and 30. -/
def strayState : State :=
  { phase := .run, csr := [(Reg.COL_CNT 2, 0x3FFFFFFF)], cores := [(0, { st := .run, run := some strayRun })]
    col := { settings := [(1, 0x40000000)] } }

/-- The state in which the lanes are judged, one by one. -/
def strayJudged : State := strayState.portWait.markVoice strayContribution

theorem strayContribution_accepted :
    strayState.portWait.acceptContribution strayContribution = strayJudged.addLanes strayContribution := by
  refine acceptContribution_voice _ (by decide) ?_ ?_ ?_
  · rw [portWait_only]; rfl
  · rw [portWait_col]; exact List.not_mem_nil
  · rw [portWait_only]; rfl

theorem strayJudged_acc : strayJudged.col.acc = [] :=
  congrArg Collector.acc (portWait_col strayState)

theorem strayJudged_settings : strayJudged.col.settings = [(1, 0x40000000)] :=
  congrArg Collector.settings (portWait_col strayState)

theorem strayJudged_count : strayJudged.reg (Reg.COL_CNT 2) = 0x3FFFFFFF :=
  portWait_reg_other strayState (by decide)

/-- The first lane finds the part without an owner and is a rule break. -/
def strayBroken : State := (strayJudged.count (Reg.COL_CNT 2)).colFlag 2

theorem strayBroken_col : strayBroken.col = strayJudged.col := by
  rw [strayBroken, colFlag_only]; rfl

theorem strayBroken_count : strayBroken.reg (Reg.COL_CNT 2) = 0x40000000 := by
  rw [strayBroken, colFlag_reg_other _ _ (by decide) (by decide), count_eq, setReg_reg_same, strayJudged_count]
  rfl

/-- The rule break makes host A the owner that the second lane finds, and the lane is added. -/
theorem strayContribution_addLanes : strayJudged.addLanes strayContribution = strayBroken.addLane 0 1 [1] := by
  have hfirst : strayJudged.laneAllowed 0 0x13C0A 0 1 = false := by
    rw [laneAllowed_voice _ (by decide), show Reg.VAL_PART_OWNER 0x13C0A = Reg.COL_CNT 2 from rfl, strayJudged_count]
    rfl
  have hsecond : strayBroken.laneAllowed 0 0x13C0A 0 1 = true := by
    rw [laneAllowed_voice _ (by decide), show Reg.VAL_PART_OWNER 0x13C0A = Reg.COL_CNT 2 from rfl, strayBroken_count,
      strayBroken_col, strayJudged_settings]
    rfl
  simp only [State.addLanes, strayContribution, List.foldl_cons, List.foldl_nil, hfirst, Bool.false_eq_true, if_false]
  exact if_pos hsecond

/-- CONTRIBUTION_ACCEPT adds the second lane into bus 1, which the state before it allows to neither lane. -/
theorem strayState_bus {t : State} (h : exec (.contributionAccept 0) strayState = .next t) : t.bus 0 1 0 = 1 := by
  rw [exec_contributionAccept strayState 0 rfl, done_eq,
    veDeliver_ended strayState (n := (0 : Fin 64).val) (r := strayRun) rfl rfl rfl rfl rfl] at h
  injection h with h
  rw [← h]
  show State.bus (State.closeEarly _) 0 1 0 = 1
  rw [closeEarly_bus, setCore_bus, strayContribution_accepted, strayContribution_addLanes, addLane_bus _ _ _ _ (by omega),
    State.bus, strayBroken_col, strayJudged_acc]
  rfl

/-- Refutes O46: the statement asks of each lane what R367 allows in the state before the command; the model judges a lane
after the rule breaks of the lanes before it have been counted. The two differ for a contribution whose part lies past the
device's 1,024 parts, which the statement does not exclude: where the owner of such a part is read stands COL_CNT 2, and the
count of the first lane's rule break makes the second an allowed one, so that bus 1 holds 1 where the statement has 0. -/
theorem not_taskEnd : ¬ Obligations.TaskEnd := by
  unfold Obligations.TaskEnd
  intro h
  obtain ⟨-, hrun⟩ := h 0 strayState
  obtain ⟨-, -, haccept, -⟩ := hrun strayRun rfl rfl
  obtain ⟨t, u, hexec, -, -, -, hcol, -, -, -, -, -, -, -, -, -, hadded⟩ := haccept strayContribution rfl rfl rfl rfl
  obtain ⟨-, hsum⟩ := hadded (by decide) (by decide) (by decide) (by decide)
  have hmodel : u.bus 0 1 0 = 1 := by
    rw [← strayState_bus hexec, State.bus, State.bus, hcol]
  have hstated : u.bus 0 1 0 = 0 := (hsum 0 1 0 (by omega) (by omega)).trans (by decide)
  omega

end Sys2Proof.Machine
end

section
/-! PROOFS. Migration copies (R325): what a copy of memory leaves, and what MIGRATION_COPY and MIGRATION_COPY_DONE change. -/

namespace Sys2Proof.Machine

variable (s : State)

/-! ### Commands of the cores (R613) -/

theorem whenRunning_runs (h : s.engineRuns = true) (t : State) : s.whenRunning t = t := if_pos h

theorem whenRunning_gated (h : s.engineRuns = false) (t : State) : s.whenRunning t = s := by
  simp [State.whenRunning, h]

/-- A command of a unit that SLEEP gates does nothing there. -/
theorem done_whenRunning_gated (h : s.engineRuns = false) (t : State) : done s (s.whenRunning t) = .next s := by
  rw [whenRunning_gated s h]
  rfl

/-- A command whose conditions are not met does nothing, whether the unit runs or not. -/
theorem done_whenRunning_same {t : State} (h : t = s) : done s (s.whenRunning t) = .next s := by
  rw [h, State.whenRunning, ite_self]
  rfl

theorem done_whenRunning_runs (h : s.engineRuns = true) {t : State} (ht : t.pending = s.pending) :
    done s (s.whenRunning t) = .next t := by
  rw [whenRunning_runs s h, done_pending s ht]

/-! ### Copied memory -/

section
variable {α : Type} (d : α)

theorem tget_unlisted {t : Tbl α} {k : Nat} (h : ∀ e ∈ t, e.1 ≠ k) : tget d t k = d := by
  induction t with
  | nil => rfl
  | cons e t ih =>
    obtain ⟨hk, ht⟩ := List.forall_mem_cons.1 h
    exact (if_neg hk).trans (ih ht)

/-- What a filter by index leaves of a table. -/
theorem tget_filter (p : Nat → Bool) (t : Tbl α) (k : Nat) :
    tget d (t.filter fun e => p e.1) k = if p k = true then tget d t k else d := by
  induction t with
  | nil => exact (ite_self d).symm
  | cons e t ih =>
    by_cases hk : e.1 = k
    · subst hk
      by_cases hp : p e.1 = true
      · simp [hp, tget]
      · simp [hp, ih]
    · by_cases hp : p e.1 = true <;> simp [hp, tget, hk, ih]

/-- A table whose entries are changed by a map that keeps the default. -/
theorem tget_map (f : α → α) (hf : f d = d) (t : Tbl α) (k : Nat) :
    tget d (t.map fun e => (e.1, f e.2)) k = f (tget d t k) := by
  induction t with
  | nil => exact hf.symm
  | cons e t ih =>
    simp only [List.map_cons, tget]
    split
    · rfl
    · exact ih

/-- An index that holds another value than the default is listed. -/
theorem mem_of_tget {t : Tbl α} {k : Nat} (h : tget d t k ≠ d) : (k, tget d t k) ∈ t := by
  induction t with
  | nil => exact absurd rfl h
  | cons e t ih =>
    by_cases hk : e.1 = k
    · subst hk
      simp [tget]
    · simp only [tget, if_neg hk] at h ⊢
      exact List.mem_cons_of_mem _ (ih h)

end

/-- Bytes stored one by one at their distance from `src`: each holds what is listed for it, and the rest what they held. -/
theorem foldl_setByte_byte (src dst : Nat) (l : Tbl Byte) (hl : l.Pairwise fun x y => x.1 < y.1) (hs : ∀ e ∈ l, src ≤ e.1)
    (c : Nat) : ∀ t : State, (l.foldl (fun t e => t.setByte (dst + (e.1 - src)) e.2) t).byte c =
      if dst ≤ c then tget (t.byte c) l (src + (c - dst)) else t.byte c := by
  induction l with
  | nil => intro t; exact (ite_self _).symm
  | cons e l ih =>
    intro t
    obtain ⟨he, hl⟩ := List.pairwise_cons.1 hl
    obtain ⟨hse, hs⟩ := List.forall_mem_cons.1 hs
    rw [List.foldl_cons, ih hl hs, setByte_byte]
    by_cases hc : dst ≤ c
    · by_cases hk : e.1 = src + (c - dst)
      · have hrest : ∀ f ∈ l, f.1 ≠ src + (c - dst) := fun f hf => by have := he f hf; omega
        rw [if_pos hc, if_pos hc, if_pos (by omega), tget_unlisted _ hrest]
        exact (if_pos hk).symm
      · rw [if_pos hc, if_pos hc, if_neg (by omega)]
        exact (if_neg hk).symm
    · rw [if_neg hc, if_neg hc, if_neg (by omega)]

/-- A copy changes memory only. -/
theorem copyBytes_changes (src dst n : Nat) : ∃ m, s.copyBytes src dst n = { s with mem := m } :=
  foldl_keeps (fun t : State => ∃ m, t = { s with mem := m }) _ (by rintro _ e ⟨m, rfl⟩; exact ⟨_, rfl⟩) _ _ ⟨_, rfl⟩

/-- The copied bytes hold what their sources held, and every other byte what it held. -/
theorem copyBytes_byte (h : Memory.wf s.mem = true) (src dst n c : Nat) :
    (s.copyBytes src dst n).byte c = if dst ≤ c ∧ c < dst + n then s.byte (src + (c - dst)) else s.byte c := by
  have hrising : s.mem.Pairwise fun x y => x.1 < y.1 := ((twf_iff _ _).1 h).1
  have hfrom : ∀ e ∈ s.mem.filter fun e => decide (src ≤ e.1) && decide (e.1 < src + n), src ≤ e.1 := fun e he => by
    have hrange := (List.mem_filter.1 he).2
    simp only [Bool.and_eq_true, decide_eq_true_eq] at hrange
    exact hrange.1
  unfold State.copyBytes
  simp only
  rw [foldl_setByte_byte src dst _ (hrising.filter _) hfrom, clearBytes_byte,
    tget_filter _ fun a => decide (src ≤ a) && decide (a < src + n)]
  by_cases hd : dst ≤ c
  · by_cases hc : c < dst + n
    · simp [hd, hc, State.byte, show src + (c - dst) < src + n by omega]
    · simp [hd, hc, show ¬ src + (c - dst) < src + n by omega]
  · simp [hd]

/-! ### The copy of a context (R325) -/

/-- The bytes of a context copied to its new region: all but its frames, and one of the two frames where the new core reads
it before the fabric publishes one there. -/
def State.contextCopied (s : State) (src dst n : Nat) : Option Nat → State
  | none => s.copyBytes src dst (n - 256)
  | some f => (s.copyBytes src dst (n - 256)).copyBytes (src + n - 256 + 128 * f) (dst + n - 256 + 128 * f) 128

section
variable {s} (src dst n : Nat) (frame : Option Nat)

theorem contextCopied_changes : ∃ x, s.contextCopied src dst n frame = { s with mem := x } := by
  cases frame with
  | none => exact copyBytes_changes ..
  | some f =>
    obtain ⟨x, hx⟩ := copyBytes_changes s src dst (n - 256)
    obtain ⟨y, hy⟩ := copyBytes_changes (s.copyBytes src dst (n - 256)) (src + n - 256 + 128 * f) (dst + n - 256 + 128 * f) 128
    exact ⟨y, hy.trans (by rw [hx])⟩

/-- The new region holds what the old one held, but for the frames. -/
theorem contextCopied_byte_within (h : Memory.wf s.mem = true) {i : Nat} (hi : i < n - 256) :
    (s.contextCopied src dst n frame).byte (dst + i) = s.byte (src + i) := by
  have hbody : (s.copyBytes src dst (n - 256)).byte (dst + i) = s.byte (src + i) := by
    rw [copyBytes_byte s h, if_pos (by omega), Nat.add_sub_cancel_left]
  cases frame with
  | none => exact hbody
  | some f =>
    show (State.copyBytes (State.copyBytes ..) ..).byte _ = _
    rw [copyBytes_byte _ (copyBytes_wf h ..), if_neg (by omega), hbody]

/-- Outside the new region no byte changes. -/
theorem contextCopied_byte_outside (h : Memory.wf s.mem = true) (hn : 256 ≤ n) (hf : ∀ f, frame = some f → f ≤ 1) {a : Nat}
    (ha : a < dst ∨ dst + n ≤ a) : (s.contextCopied src dst n frame).byte a = s.byte a := by
  have hbody : (s.copyBytes src dst (n - 256)).byte a = s.byte a := by
    rw [copyBytes_byte s h, if_neg (by omega)]
  cases frame with
  | none => exact hbody
  | some f =>
    have := hf f rfl
    show (State.copyBytes (State.copyBytes ..) ..).byte _ = _
    rw [copyBytes_byte _ (copyBytes_wf h ..), if_neg (by omega), hbody]

end

/-- The frame that a copy takes with the context: none where the block opens a control tick, whose frame the fabric publishes
on the new core, and the last one of a voice in DYING (R285, R325). -/
def State.frameTaken (s : State) (v : Nat) (m : Migration) : Option Nat :=
  if (s.noTick m.blk || decide ((s.slot v).state = .dying)) = true then
    some (if (s.slot v).state = .dying then (s.ctx v).pubFrame else s.frameOfBlock m.blk)
  else none

/-- A frame taken is frame 0 or frame 1 (R281). -/
theorem frameTaken_le_one {v : Nat} {m : Migration} (h : (s.ctx v).pubFrame ≤ 1) {f : Nat}
    (hf : s.frameTaken v m = some f) : f ≤ 1 := by
  unfold State.frameTaken at hf
  split at hf
  · obtain rfl := Option.some.inj hf
    split
    · exact h
    · unfold State.frameOfBlock
      omega
  · cases hf

theorem charge_ctx (n k y : Nat) : (s.charge n k).ctx y = s.ctx y := rfl

theorem charge_byte (n k a : Nat) : (s.charge n k).byte a = s.byte a := rfl

theorem setCtx_byte (y : Nat) (c : Ctx) (a : Nat) : (s.setCtx y c).byte a = s.byte a := rfl

section
variable {s} {v : Nat} {m : Migration}

/-- A copy that may start copies the context, marks the migration and takes time on both cores. -/
theorem migrationCopy_starts (hm : (s.ctx v).mig = some m) (hc : m.copying = false)
    (ha : s.tagActive (voiceTag v false) = false) : ∃ k, s.migrationCopy v =
      (((s.contextCopied (lmBase (s.ctx v).ve + (s.ctx v).base * 64) (lmBase m.toVe + m.toBase * 64) ((s.ctx v).size * 64)
        (s.frameTaken v m)).setCtx v { s.ctx v with mig := some { m with copying := true } }).charge (s.ctx v).ve k).charge
        m.toVe k := by
  unfold State.migrationCopy State.frameTaken
  simp only [hm, hc, ha, Bool.false_eq_true, or_self, if_false]
  split <;> exact ⟨_, rfl⟩

/-- A copy under way, or one of a context that a task still uses, does not start. -/
theorem migrationCopy_waits (hm : (s.ctx v).mig = some m)
    (h : m.copying = true ∨ s.tagActive (voiceTag v false) = true) : s.migrationCopy v = s := by
  simp only [State.migrationCopy, hm, if_pos h]

theorem migrationCopy_none (hm : (s.ctx v).mig = none) : s.migrationCopy v = s := by
  simp only [State.migrationCopy, hm]

theorem migrationDone_none (hm : (s.ctx v).mig = none) : s.migrationDone v = s := by
  simp only [State.migrationDone, hm]

theorem migrationDone_waits (hm : (s.ctx v).mig = some m) (hc : m.copying = false) : s.migrationDone v = s := by
  simp [State.migrationDone, hm, hc]

end

section
variable (v : Fin 8192) {m : Migration}

/-- MIGRATION_COPY copies the context, its frames apart, within its new region (R325). -/
theorem exec_migrationCopy_starts (hr : s.engineRuns = true) (hm : (s.ctx v.val).mig = some m) (hc : m.copying = false)
    (ha : s.tagActive (voiceTag v.val false) = false) (hw : Memory.wf s.mem = true) :
    ∃ t, exec (.migrationCopy v) s = .next t ∧ t = { s with mem := t.mem, ctxs := t.ctxs, cores := t.cores } ∧
      t.ctx v.val = { s.ctx v.val with mig := some { m with copying := true } } ∧ (∀ y, y ≠ v.val → t.ctx y = s.ctx y) ∧
      (∀ i, i < (s.ctx v.val).size * 64 - 256 → t.byte (lmBase m.toVe + m.toBase * 64 + i) =
        s.byte (lmBase (s.ctx v.val).ve + (s.ctx v.val).base * 64 + i)) ∧
      (4 ≤ (s.ctx v.val).size → (s.ctx v.val).pubFrame ≤ 1 → ∀ a, a < lmBase m.toVe + m.toBase * 64 ∨
        lmBase m.toVe + (m.toBase + (s.ctx v.val).size) * 64 ≤ a → t.byte a = s.byte a) := by
  obtain ⟨k, hcopy⟩ := migrationCopy_starts hm hc ha
  have hexec : exec (.migrationCopy v) s = done s (s.whenRunning (s.migrationCopy v.val)) := rfl
  obtain ⟨x, hx⟩ := contextCopied_changes (s := s) (lmBase (s.ctx v.val).ve + (s.ctx v.val).base * 64)
    (lmBase m.toVe + m.toBase * 64) ((s.ctx v.val).size * 64) (s.frameTaken v.val m)
  refine ⟨s.migrationCopy v.val, hexec.trans (done_whenRunning_runs s hr ?_), ?_, ?_, fun y hy => ?_, fun i hi => ?_,
    fun hsize hpub a ha => ?_⟩
  · rw [hcopy, hx]; rfl
  · rw [hcopy, hx]; rfl
  · rw [hcopy, charge_ctx, charge_ctx, setCtx_ctx_same]
  · rw [hcopy, charge_ctx, charge_ctx, setCtx_ctx_other _ hy, hx]
    rfl
  · rw [hcopy, charge_byte, charge_byte, setCtx_byte, contextCopied_byte_within _ _ _ _ hw hi]
  · rw [hcopy, charge_byte, charge_byte, setCtx_byte,
      contextCopied_byte_outside _ _ _ _ hw (by omega) (fun f hf => frameTaken_le_one s hpub hf) (by omega)]

/-! ### The end of a migration (R313, R325) -/

/-- An arbitration instant changes the lists of the cores, and the number of the next instant. -/
theorem stampAll_changes : s.stampAll = { s with cores := s.stampAll.cores, readySeq := s.readySeq + 1 } ∧
    ∀ k, s.stampAll.core k = { s.core k with list := (s.stampAll.core k).list } := by
  have hfold := foldl_keeps
    (fun u : State => u = { s with cores := u.cores } ∧ ∀ k, u.core k = { s.core k with list := (u.core k).list })
    State.stampCore (fun u n ⟨hu, hk⟩ => by
      refine ⟨by rw [hu]; rfl, fun k => ?_⟩
      unfold State.stampCore
      by_cases h : k = n
      · subst h
        rw [setCore_core_same, hk k]
      · rw [setCore_core_other _ h]
        exact hk k) (s.cores.map (·.1)) s ⟨rfl, fun _ => rfl⟩
  exact ⟨by unfold State.stampAll; rw [hfold.1], hfold.2⟩

/-- The migration of voice v has ended: the context lives on the new core and its publications are free. -/
def State.migrated (s : State) (v : Nat) (m : Migration) : State :=
  { s.setCtx v { s.ctx v with ve := m.toVe, base := m.toBase, mig := none } with
    pubs := s.pubs.map fun q => if q.voice = v then { q with heldForCopy := false } else q }

theorem migrationDone_copied {v : Nat} (hm : (s.ctx v).mig = some m) (hc : m.copying = true) :
    s.migrationDone v = (s.migrated v m).stampAll := by
  simp only [State.migrationDone, hm, hc, if_true]
  rfl

/-- MIGRATION_COPY_DONE after a copy moves the context, frees its publications and opens an arbitration instant (R325). -/
theorem exec_migrationCopyDone_copied (hr : s.engineRuns = true) (hm : (s.ctx v.val).mig = some m)
    (hc : m.copying = true) : ∃ t, exec (.migrationCopyDone v) s = .next t ∧
      t = { s with ctxs := t.ctxs, pubs := t.pubs, cores := t.cores, readySeq := s.readySeq + 1 } ∧
      t.ctx v.val = { s.ctx v.val with ve := m.toVe, base := m.toBase, mig := none } ∧
      (∀ y, y ≠ v.val → t.ctx y = s.ctx y) ∧
      t.pubs = (s.pubs.map fun p => if p.voice = v.val then { p with heldForCopy := false } else p) ∧
      ∀ k, t.core k = { s.core k with list := (t.core k).list } := by
  obtain ⟨honly, hcore⟩ := stampAll_changes (s.migrated v.val m)
  have hexec : exec (.migrationCopyDone v) s = done s (s.whenRunning (s.migrationDone v.val)) := rfl
  rw [migrationDone_copied s hm hc] at hexec
  refine ⟨(s.migrated v.val m).stampAll, hexec.trans (done_whenRunning_runs s hr ?_), ?_, ?_, fun y hy => ?_, ?_, hcore⟩
  · rw [honly]; rfl
  · rw [honly]; rfl
  · rw [honly]; exact setCtx_ctx_same ..
  · rw [honly]; exact setCtx_ctx_other _ hy _
  · rw [honly]; rfl

end

end Sys2Proof.Machine
end

section
/-! PROOFS. The recovery of cores and Stage Engines (R245 to R247, R333, R400, R419, R420): RESUME, what a core's leaving of
service changes, and what the end of a recovery kernel does by its result. -/

namespace Sys2Proof.Machine

variable (s : State)

/-! ### RESUME (R245, R247) -/

/-- A write of VE_CTRL with RESUME = 1 stores HOLD, and starts the recovery kernel on a held core. -/
theorem veCtrl_resume (n : Nat) {w : Word} (hw : bit w 1 = true) :
    s.veCtrl n w =
      let u := s.setReg (Reg.VE_CTRL n) (setFld (s.reg (Reg.VE_CTRL n)) 0 0 (fld w 0 0))
      if (s.core n).st = .haltfault then
        u.setCore n { s.core n with st := .run, kernel := some 1, heldArch := none }
      else u := by
  simp only [State.veCtrl, hw, true_or, and_true]
  rfl

theorem bit_resume (w : Word) : bit (w ||| 2) 1 = true := by
  simp [bit]

/-- VE_RESUME that the device accepts: HOLD is stored, and a held core gets its recovery kernel (R247). -/
theorem exec_veResume_taken (q : Req) (n : Fin 64) {w w' : Word} (hw : w' = w ||| 2)
    (ht : s.takes q (Reg.VE_CTRL n.val) w' = true) :
    let u := { s.setReg (Reg.VE_CTRL n.val) (setFld (s.reg (Reg.VE_CTRL n.val)) 0 0 (fld w' 0 0)) with resp := {} }
    ((s.core n.val).st = .haltfault → exec (.veResume q n w) s =
      .next (u.setCore n.val { s.core n.val with st := .run, kernel := some 1, heldArch := none })) ∧
    ((s.core n.val).st ≠ .haltfault → exec (.veResume q n w) s = .next u) := by
  subst hw
  have hexec : exec (.veResume q n w) s = done s (s.put32 q (Reg.VE_CTRL n.val) (w ||| 2)) := rfl
  rw [put32_VE_CTRL n ht, veCtrl_resume s n.val (bit_resume w)] at hexec
  refine ⟨fun hst => ?_, fun hst => ?_⟩
  · rw [hexec]
    simp only [if_pos hst]
    rfl
  · rw [hexec]
    simp only [if_neg hst]
    rfl

/-! ### What the faults of contexts leave to the Puppeteer -/

/-- Memory, the cores and the Puppeteer's registers are as they were. -/
structure State.KeepsPuppeteer (s t : State) : Prop where
  mem : t.mem = s.mem
  cores : t.cores = s.cores
  reg : ∀ a, 0x07070000 ≤ a → a < 0x07080000 → t.reg a = s.reg a

section
variable {s} {t u : State}

theorem keepsPuppeteer_refl : s.KeepsPuppeteer s := ⟨rfl, rfl, fun _ _ _ => rfl⟩

theorem keepsPuppeteer_trans (h : s.KeepsPuppeteer t) (k : t.KeepsPuppeteer u) : s.KeepsPuppeteer u :=
  ⟨k.mem.trans h.mem, k.cores.trans h.cores, fun a ha hb => (k.reg a ha hb).trans (h.reg a ha hb)⟩

end

/-- A register outside the Puppeteer's block is stored. -/
theorem setReg_keepsPuppeteer {a : Nat} (ha : a < 0x07070000 ∨ 0x07080000 ≤ a) (w : Word) :
    s.KeepsPuppeteer (s.setReg a w) :=
  ⟨rfl, rfl, fun _ _ _ => setReg_reg_other s (by omega) w⟩

theorem causeBoth_keepsPuppeteer (v : Nat) : s.KeepsPuppeteer (s.causeBoth v) :=
  ⟨by rw [causeBoth_only], by rw [causeBoth_only], fun _ _ _ => causeBoth_reg_other s _ _ (by omega)⟩

theorem peak_keepsPuppeteer {a : Nat} (ha : a < 0x07070000 ∨ 0x07080000 ≤ a) (hi lo v : Nat) :
    s.KeepsPuppeteer (s.peak a hi lo v) :=
  ⟨by rw [peak_only], by rw [peak_only], fun _ _ _ => peak_reg_other s (by omega) ..⟩

/-- The end of a slice's evaluation goes to MOD_TEVAL (R677). -/
theorem endEval_keepsPuppeteer (m : SliceEval) : s.KeepsPuppeteer (s.endEval m) := by
  have hreg : Reg.MOD_TEVAL m.slice < 0x07070000 ∨ 0x07080000 ≤ Reg.MOD_TEVAL m.slice := by
    unfold Reg.MOD_TEVAL
    omega
  have hdraw : s.KeepsPuppeteer (if m.voices then s else (s.free 16).2) := by
    split <;> exact ⟨rfl, rfl, fun _ _ _ => rfl⟩
  unfold State.endEval
  simp only
  split
  · exact keepsPuppeteer_trans hdraw (keepsPuppeteer_trans (peak_keepsPuppeteer _ hreg ..) (setReg_keepsPuppeteer _ hreg _))
  · exact keepsPuppeteer_trans hdraw (peak_keepsPuppeteer _ hreg ..)

theorem dropPubs_keepsPuppeteer (v : Nat) : s.KeepsPuppeteer (s.dropPubs v) :=
  foldl_keeps s.KeepsPuppeteer State.endEval (fun t m ht => keepsPuppeteer_trans ht (endEval_keepsPuppeteer t m)) _ _
    ⟨rfl, rfl, fun _ _ _ => rfl⟩

theorem slotFault_keepsPuppeteer (v : Nat) : s.KeepsPuppeteer (s.slotFault v) := by
  unfold State.slotFault
  simp only
  split
  · exact keepsPuppeteer_refl
  · refine keepsPuppeteer_trans (keepsPuppeteer_trans (keepsPuppeteer_trans (t := s.setSlot v _) ⟨rfl, rfl, fun _ _ _ => rfl⟩
      (dropPubs_keepsPuppeteer _ v)) (setReg_keepsPuppeteer _ ?_ _)) (keepsPuppeteer_trans (setReg_keepsPuppeteer _ ?_ _)
      (causeBoth_keepsPuppeteer _ 9)) <;> decide

/-- The voice or the tail of a context whose core leaves service faults (R333). -/
def State.faultContext (s : State) (e : Nat × Ctx) : State :=
  if e.1 < 8192 then s.slotFault e.1 else s.setTail (e.1 - 8192) { s.tail (e.1 - 8192) with faulted := true }

theorem faultContexts_keepsPuppeteer (l : List (Nat × Ctx)) : s.KeepsPuppeteer (l.foldl State.faultContext s) := by
  refine foldl_keeps s.KeepsPuppeteer _ (fun t e ht => keepsPuppeteer_trans ht ?_) l s keepsPuppeteer_refl
  unfold State.faultContext
  split
  · exact slotFault_keepsPuppeteer t e.1
  · exact ⟨rfl, rfl, fun _ _ _ => rfl⟩

/-! ### Fixed tasks that are disabled (R310, R333) -/

/-- A hit in a row of the map has the row's name, width and fields. -/
theorem hit_row {r : RegSpec} {a : Nat} {h : RegHit} (hh : r.hit a = some h) :
    h.name = r.name ∧ h.wide = r.wide ∧ h.fields = r.fields := by
  simp only [RegSpec.hit, Option.ite_none_left_eq_some, Option.ite_none_right_eq_some, Option.some.injEq] at hh
  obtain ⟨-, -, rfl⟩ := hh
  exact ⟨rfl, rfl, rfl⟩

/-- The row of PUP_TASK_CFG gives EN the Power-on value 0. -/
theorem mapPup_taskEn : ∀ r ∈ mapPup, r.name = .PUP_TASK_CFG →
    r.wide = false ∧ bit (r.fields.foldl (fun w f => setFld w f.hi f.lo f.pon) 0) 31 = false := by
  decide

/-- EN of every entry of the fixed task table is 0 at Power-on. -/
theorem powerOn_taskEn (x : Variant) (t : Fin 256) : bit (powerOnWord x (Reg.PUP_TASK_CFG t.val)) 31 = false := by
  have hblock : Reg.PUP_TASK_CFG t.val / 0x10000 = 0x707 := by
    unfold Reg.PUP_TASK_CFG
    omega
  obtain ⟨h, hf, hh⟩ := Option.map_eq_some_iff.1 (find_PUP_TASK_CFG t)
  obtain ⟨r, hr, hhit⟩ := List.exists_of_findSome?_eq_some hf
  obtain ⟨hname, hwide, hfields⟩ := hit_row hhit
  have htask : h.name = .PUP_TASK_CFG := congrArg Prod.fst hh
  simp only [blockMap, hblock] at hr
  obtain ⟨hw, hen⟩ := mapPup_taskEn r hr (hname.symm.trans htask)
  simp only [powerOnWord, hf, htask, indexedPon, RegHit.wordFields, hwide, hw, hfields, Bool.false_eq_true, if_false, hen]

/-- An entry that is enabled is among the listed registers. -/
theorem mem_enabledTasks {k : Nat} (hk : k < 256) (h : s.taskEn k = true) : k ∈ s.enabledTasks := by
  have hlisted : (Reg.PUP_TASK_CFG k, s.reg (Reg.PUP_TASK_CFG k)) ∈ s.csr := mem_of_tget _ fun hpon => by
    have hen : bit (s.reg (Reg.PUP_TASK_CFG k)) 31 = true := h
    rw [State.reg, hpon, powerOn_taskEn s.variant ⟨k, hk⟩] at hen
    cases hen
  have hat : Reg.PUP_TASK_CFG k = Reg.PUP_TASK_CFG 0 + k * 16 := by
    unfold Reg.PUP_TASK_CFG
    omega
  have hindex : (k, s.reg (Reg.PUP_TASK_CFG k)) ∈ s.listed (Reg.PUP_TASK_CFG 0) 256 16 := by
    refine List.mem_filterMap.2 ⟨_, hlisted, (if_pos (by simp only [hat]; omega)).trans ?_⟩
    simp [hat]
  exact List.mem_filterMap.2 ⟨_, hindex, if_pos h⟩

section
variable (k : Nat)

theorem pupFlag_only (n : Nat) : s.pupFlag n = { s with csr := (s.pupFlag n).csr, ports := (s.pupFlag n).ports } := by
  unfold State.pupFlag
  rw [causeBoth_only]; rfl

/-- A flag of PUP_STAT changes no other register of the Puppeteer. -/
theorem pupFlag_reg_other (n : Nat) {a : Nat} (h : 0x07030000 ≤ a) (ha : a ≠ Reg.PUP_STAT) :
    (s.pupFlag n).reg a = s.reg a := by
  unfold State.pupFlag
  rw [causeBoth_reg_other _ _ _ (.inr h)]
  exact orReg_reg_other _ ha _

/-- A flag that is set stands in PUP_STAT. -/
theorem pupFlag_rb {n : Nat} (h : n < 32) : (s.pupFlag n).rb Reg.PUP_STAT n = true := by
  unfold State.pupFlag State.rb
  rw [causeBoth_reg_other _ _ _ (by decide)]
  exact orReg_rb s _ n h

/-- The queued tasks of a disabled entry go; a core is otherwise left as it is. -/
theorem disableFaulted_core (m : Nat) : (s.disableFaulted k).core m =
    { s.core m with list := (s.core m).list.filter fun x => decide (x.tag ≠ fixedTag k) } := by
  unfold State.disableFaulted State.core
  simp only
  rw [pupFlag_only]
  exact tget_map ({} : Core)
    (fun c : Core => { c with list := c.list.filter fun x => decide (x.tag ≠ fixedTag k) }) rfl s.cores m

theorem disableFaulted_mem : (s.disableFaulted k).mem = s.mem := by
  unfold State.disableFaulted
  simp only
  rw [pupFlag_only]
  rfl

/-- Beside PUP_STAT, a disabling changes the entry's own word of the Puppeteer's registers. -/
theorem disableFaulted_reg {a : Nat} (h : 0x07030000 ≤ a) (ha : a ≠ Reg.PUP_STAT) : (s.disableFaulted k).reg a =
    (s.setReg (Reg.PUP_TASK_CFG k) (s.reg (Reg.PUP_TASK_CFG k) &&& 0x7FFFFFFD)).reg a := by
  unfold State.disableFaulted
  simp only
  rw [pupFlag_reg_other _ _ h ha]
  rfl

theorem disableFaulted_taskCfg (j : Nat) : (s.disableFaulted k).reg (Reg.PUP_TASK_CFG j) =
    (s.setReg (Reg.PUP_TASK_CFG k) (s.reg (Reg.PUP_TASK_CFG k) &&& 0x7FFFFFFD)).reg (Reg.PUP_TASK_CFG j) :=
  disableFaulted_reg s k (by unfold Reg.PUP_TASK_CFG; omega) (by unfold Reg.PUP_TASK_CFG Reg.PUP_STAT; omega)

/-- EN of a disabled entry is 0 (R333). -/
theorem disableFaulted_taskEn_same : (s.disableFaulted k).taskEn k = false := by
  rw [State.taskEn, State.rb, disableFaulted_taskCfg, setReg_reg_same]
  simp [bit]

theorem disableFaulted_taskEn_other {j : Nat} (h : j ≠ k) : (s.disableFaulted k).taskEn j = s.taskEn j := by
  rw [State.taskEn, State.rb, disableFaulted_taskCfg, setReg_reg_other s (by unfold Reg.PUP_TASK_CFG; omega)]
  rfl

/-- No disabling enables an entry. -/
theorem disableFaulted_taskEn_false {j : Nat} (h : s.taskEn j = false) : (s.disableFaulted k).taskEn j = false := by
  by_cases hj : j = k
  · subst hj
    exact disableFaulted_taskEn_same s j
  · rw [disableFaulted_taskEn_other s k hj, h]

/-- A fixed task that faulted stands in PUP_STAT. -/
theorem disableFaulted_flag : (s.disableFaulted k).rb Reg.PUP_STAT 3 = true := pupFlag_rb _ (by omega)

end

/-- Disabled entries leave memory as it is. -/
theorem disableAll_mem (l : List Nat) : (l.foldl State.disableFaulted s).mem = s.mem :=
  foldl_keeps (fun t : State => t.mem = s.mem) _ (fun t k ht => (disableFaulted_mem t k).trans ht) l s rfl

/-- Disabled entries leave the cores as they are, but for their lists. -/
theorem disableAll_core (l : List Nat) (m : Nat) : (l.foldl State.disableFaulted s).core m =
    { s.core m with list := ((l.foldl State.disableFaulted s).core m).list } :=
  foldl_keeps (fun t : State => t.core m = { s.core m with list := (t.core m).list }) _ (fun t k ht => by
    rw [disableFaulted_core, ht]) l s rfl

/-- A core without queued tasks is left as it is. -/
theorem disableAll_core_empty (l : List Nat) {m : Nat} (h : (s.core m).list = []) :
    (l.foldl State.disableFaulted s).core m = s.core m :=
  foldl_keeps (fun t : State => t.core m = s.core m) _ (fun t k ht => by
    rw [disableFaulted_core, ht, h, List.filter_nil, ← h]) l s rfl

theorem disableAll_taskEn_false (l : List Nat) {k : Nat} (h : s.taskEn k = false) :
    (l.foldl State.disableFaulted s).taskEn k = false :=
  foldl_keeps (fun t : State => t.taskEn k = false) _ (fun t j ht => disableFaulted_taskEn_false t j ht) l s h

/-- Every entry of the list is disabled, and PUP_STAT shows it. -/
theorem disableAll_disabled {l : List Nat} {k : Nat} (h : k ∈ l) : (l.foldl State.disableFaulted s).taskEn k = false ∧
    (l.foldl State.disableFaulted s).rb Reg.PUP_STAT 3 = true := by
  induction l generalizing s with
  | nil => cases h
  | cons j l ih =>
    rw [List.foldl_cons]
    rcases List.mem_cons.1 h with rfl | h
    · exact ⟨disableAll_taskEn_false _ l (disableFaulted_taskEn_same s k),
        foldl_keeps (fun t : State => t.rb Reg.PUP_STAT 3 = true) _ (fun t j _ => disableFaulted_flag t j) l _
          (disableFaulted_flag s k)⟩
    · exact ih (s.disableFaulted j) h

/-! ### A core leaves service (R246, R333, R493) -/

/-- A cause marked "both" stands in each port. -/
theorem causeBoth_rb {p v : Nat} (hp : p < 2) (hv : v < 32) : (s.causeBoth v).rb (Reg.HPx_IRQ_STAT p) v = true := by
  unfold State.causeBoth
  match p, hp with
  | 0, _ =>
    unfold State.rb
    rw [cause_reg_other _ 1 v _ (by decide)]
    exact cause_rb s 0 v hv
  | 1, _ => exact cause_rb _ 1 v hv

/-- The core is out of service, and the voices and tails placed on it have faulted. -/
def State.coreDown (s : State) (n : Nat) : State :=
  (s.ctxsOn n).foldl State.faultContext (s.setCore n { bundles := (s.core n).bundles, oos := true, st := .off })

theorem outOfService_eq (n : Nat) :
    s.outOfService n = (((s.coreDown n).tasksOn n).foldl State.disableFaulted (s.coreDown n)).causeBoth 25 := rfl

theorem coreDown_keepsPuppeteer (n : Nat) :
    (s.setCore n { bundles := (s.core n).bundles, oos := true, st := .off }).KeepsPuppeteer (s.coreDown n) :=
  faultContexts_keepsPuppeteer _ _

theorem coreDown_core (n m : Nat) : (s.coreDown n).core m =
    (s.setCore n { bundles := (s.core n).bundles, oos := true, st := .off }).core m :=
  congrArg (tget ({} : Core) · m) (coreDown_keepsPuppeteer s n).cores

theorem coreDown_taskCfg (n : Nat) {k : Nat} (hk : k < 256) :
    (s.coreDown n).reg (Reg.PUP_TASK_CFG k) = s.reg (Reg.PUP_TASK_CFG k) :=
  (coreDown_keepsPuppeteer s n).reg _ (by unfold Reg.PUP_TASK_CFG; omega) (by unfold Reg.PUP_TASK_CFG; omega)

section
variable (n : Nat)

theorem outOfService_mem : (s.outOfService n).mem = s.mem := by
  rw [outOfService_eq, causeBoth_only]
  exact (disableAll_mem _ _).trans (coreDown_keepsPuppeteer s n).mem

/-- The core that leaves service keeps nothing but its count of bundles. -/
theorem outOfService_core_same :
    (s.outOfService n).core n = { bundles := (s.core n).bundles, oos := true, st := .off } := by
  have hdown := (coreDown_core s n n).trans (setCore_core_same s n _)
  rw [outOfService_eq, causeBoth_only]
  exact (disableAll_core_empty _ _ (by rw [hdown])).trans hdown

/-- Of another core only the list can change. -/
theorem outOfService_core_other {m : Nat} (h : m ≠ n) :
    (s.outOfService n).core m = { s.core m with list := ((s.outOfService n).core m).list } := by
  have hdown := (coreDown_core s n m).trans (setCore_core_other s h _)
  rw [outOfService_eq, causeBoth_only, ← hdown]
  exact disableAll_core _ _ m

theorem outOfService_cause {p : Nat} (hp : p < 2) : (s.outOfService n).rb (Reg.HPx_IRQ_STAT p) 25 = true := by
  rw [outOfService_eq]
  exact causeBoth_rb _ hp (by omega)

/-- The entries placed on a core that leaves service are disabled, and PUP_STAT shows that one was enabled (R333). -/
theorem outOfService_tasks {k : Nat} (hk : k < 256) (hn : s.taskVe k = n) : (s.outOfService n).taskEn k = false ∧
    (s.taskEn k = true → (s.outOfService n).rb Reg.PUP_STAT 3 = true) := by
  have hkeep := causeBoth_keepsPuppeteer (((s.coreDown n).tasksOn n).foldl State.disableFaulted (s.coreDown n)) 25
  have hcfg := coreDown_taskCfg s n hk
  have hen : (s.coreDown n).taskEn k = s.taskEn k := congrArg (bit · 31) hcfg
  have hve : (s.coreDown n).taskVe k = n := (congrArg (fld · 27 22) hcfg).trans hn
  rw [outOfService_eq, State.taskEn, State.rb, State.rb,
    hkeep.reg _ (by unfold Reg.PUP_TASK_CFG; omega) (by unfold Reg.PUP_TASK_CFG; omega), hkeep.reg _ (by decide) (by decide)]
  cases hs : s.taskEn k with
  | false => exact ⟨disableAll_taskEn_false _ _ (hen.trans hs), nofun⟩
  | true =>
    have hmem : k ∈ (s.coreDown n).tasksOn n :=
      List.mem_filter.2 ⟨mem_enabledTasks _ hk (hen.trans hs), decide_eq_true hve⟩
    obtain ⟨hoff, hflag⟩ := disableAll_disabled (s.coreDown n) hmem
    exact ⟨hoff, fun _ => hflag⟩

end

/-! ### The recovery kernel of a core (R245, R246) -/

/-- What a recovery kernel clears: the spill stack and the save area of its core. -/
def State.coreCleared (s : State) (n : Nat) : State :=
  (s.clearBytes (lmBase n) 0xC00).clearBytes (lmBase n + 0x1000) 0x1000

theorem coreCleared_byte (n a : Nat) : (s.coreCleared n).byte a =
    if (lmBase n ≤ a ∧ a < lmBase n + 0xC00) ∨ (lmBase n + 0x1000 ≤ a ∧ a < lmBase n + 0x2000) then 0 else s.byte a := by
  unfold State.coreCleared
  rw [clearBytes_byte, clearBytes_byte]
  by_cases hsave : lmBase n + 0x1000 ≤ a ∧ a < lmBase n + 0x1000 + 0x1000
  · rw [if_pos hsave, if_pos (.inr hsave)]
  · rw [if_neg hsave]
    by_cases hspill : lmBase n ≤ a ∧ a < lmBase n + 0xC00
    · rw [if_pos hspill, if_pos (.inl hspill)]
    · rw [if_neg hspill, if_neg (not_or_intro hspill hsave)]

/-- The core after its recovery kernel: idle until the next block, with the kernel's bundles counted. -/
def Core.recovered (c : Core) : Core :=
  { c with st := .idle, kernel := none, backAtBlock := true, bundles := c.bundles + 48000 }

section
variable {n : Nat}

theorem veRecovered_other (h : (s.core n).kernel ≠ some 1) (pass : Bool) : s.veRecovered n pass = s := if_neg h

theorem veRecovered_pass (h : (s.core n).kernel = some 1) :
    s.veRecovered n true = (s.coreCleared n).setCore n (s.core n).recovered := if_pos h

theorem veRecovered_fail (h : (s.core n).kernel = some 1) :
    s.veRecovered n false = ((s.coreCleared n).setCore n (s.core n).recovered).outOfService n := if_pos h

end

section
variable (n : Fin 64) {c : Fin 66} (hc : c.val = n.val)
include hc

/-- RECOVERY_KERNEL_DONE of a Voice Engine. -/
theorem exec_recoveryKernelDone_core (pass : Bool) :
    exec (.recoveryKernelDone c pass) s = done s (s.whenRunning (s.veRecovered n.val pass)) := by
  show done s (s.whenRunning (s.kernelEnd c.val pass)) = _
  rw [hc, State.kernelEnd, if_pos n.isLt]

theorem exec_recoveryKernelDone_core_same (h : s.engineRuns = false ∨ (s.core n.val).kernel ≠ some 1) (pass : Bool) :
    exec (.recoveryKernelDone c pass) s = .next s := by
  rw [exec_recoveryKernelDone_core s n hc]
  rcases h with hr | hk
  · exact done_whenRunning_gated s hr _
  · exact done_whenRunning_same s (veRecovered_other s hk pass)

variable (hr : s.engineRuns = true) (hk : (s.core n.val).kernel = some 1)
include hr hk

/-- A recovery kernel that passes clears the core's areas and leaves the core idle until the next block (R245). -/
theorem exec_recoveryKernelDone_core_pass :
    ∃ t, exec (.recoveryKernelDone c true) s = .next t ∧ t = { s with mem := t.mem, cores := t.cores } ∧
      t.core n.val = { s.core n.val with
        st := .idle, kernel := none, backAtBlock := true, bundles := (s.core n.val).bundles + 48000 } ∧
      (∀ m, m ≠ n.val → t.core m = s.core m) ∧
      ∀ a, t.byte a = if (lmBase n.val ≤ a ∧ a < lmBase n.val + 0xC00) ∨
        (lmBase n.val + 0x1000 ≤ a ∧ a < lmBase n.val + 0x2000) then 0 else s.byte a := by
  have hexec := exec_recoveryKernelDone_core s n hc true
  rw [veRecovered_pass s hk] at hexec
  exact ⟨_, hexec.trans (done_whenRunning_runs s hr rfl), rfl, setCore_core_same .., fun m hm => setCore_core_other _ hm _,
    coreCleared_byte s n.val⟩

/-- A recovery kernel that fails clears and counts as much, and the core leaves service (R246, R333, R493). -/
theorem exec_recoveryKernelDone_core_fail :
    ∃ t, exec (.recoveryKernelDone c false) s = .next t ∧ (t.core n.val).oos = true ∧ (t.core n.val).st = .off ∧
      (t.core n.val).run = none ∧ (t.core n.val).saved = [] ∧ (t.core n.val).list = [] ∧
      (t.core n.val).bundles = (s.core n.val).bundles + 48000 ∧
      (∀ p, p < 2 → t.rb (Reg.HPx_IRQ_STAT p) 25 = true) ∧
      (∀ a, t.byte a = if (lmBase n.val ≤ a ∧ a < lmBase n.val + 0xC00) ∨
        (lmBase n.val + 0x1000 ≤ a ∧ a < lmBase n.val + 0x2000) then 0 else s.byte a) ∧
      (∀ m, m ≠ n.val → t.core m = { s.core m with list := (t.core m).list }) ∧
      ∀ k, k < 256 → s.taskVe k = n.val → t.taskEn k = false ∧ (s.taskEn k = true → t.rb Reg.PUP_STAT 3 = true) := by
  have hexec := exec_recoveryKernelDone_core s n hc false
  rw [veRecovered_fail s hk, whenRunning_runs s hr, done_eq] at hexec
  generalize hu : (s.coreCleared n.val).setCore n.val (s.core n.val).recovered = u at hexec
  obtain ⟨t, ht⟩ : ∃ t, t = { u.outOfService n.val with pending := s.pending } := ⟨_, rfl⟩
  rw [← ht] at hexec
  have hcore (m : Nat) : t.core m = (u.outOfService n.val).core m := by rw [ht]; rfl
  have hreg (a : Nat) : t.reg a = (u.outOfService n.val).reg a := by rw [ht]; rfl
  have hmem : t.mem = (s.coreCleared n.val).mem := by
    rw [ht, ← hu]
    exact outOfService_mem _ n.val
  have hself : t.core n.val = { bundles := (s.core n.val).recovered.bundles, oos := true, st := .off } := by
    rw [hcore, outOfService_core_same, ← hu, setCore_core_same]
  refine ⟨t, hexec, by rw [hself], by rw [hself], by rw [hself], by rw [hself], by rw [hself], by rw [hself]; rfl,
    fun p hp => ?_, fun a => ?_, fun m hm => ?_, fun k hlt hve => ?_⟩
  · rw [State.rb, hreg]
    exact outOfService_cause u n.val hp
  · rw [State.byte, hmem]
    exact coreCleared_byte s n.val a
  · have hother : u.core m = s.core m := by rw [← hu, setCore_core_other _ hm]; rfl
    rw [hcore, ← hother]
    exact outOfService_core_other u n.val hm
  · rw [State.taskEn, State.rb, State.rb, hreg, hreg]
    rw [show s.taskVe k = u.taskVe k by rw [← hu]; rfl] at hve
    rw [show s.taskEn k = u.taskEn k by rw [← hu]; rfl]
    exact outOfService_tasks u n.val hlt hve

end

/-! ### The recovery kernel of a Stage Engine (R400, R411, R419, R420) -/

/-- Memory and the Stage Engines are as they were. -/
structure State.KeepsStages (s t : State) : Prop where
  mem : t.mem = s.mem
  stgs : t.stgs = s.stgs

section
variable {s} {t u : State}

theorem keepsStages_trans (h : s.KeepsStages t) (k : t.KeepsStages u) : s.KeepsStages u :=
  ⟨k.mem.trans h.mem, k.stgs.trans h.stgs⟩

end

theorem wsWaits_keepsStages (b n : Nat) : s.KeepsStages (s.wsWaits b n) := by
  unfold State.wsWaits
  simp only
  split
  · exact ⟨rfl, rfl⟩
  · rw [peak_only]
    exact ⟨rfl, rfl⟩

theorem wsCount_keepsStages (b n : Nat) : s.KeepsStages (s.wsCount b n) :=
  ⟨(wsWaits_keepsStages _ b n).mem, (wsWaits_keepsStages _ b n).stgs⟩

/-- What a fetch still has to read is read: the banks' counters change (R362, R363). -/
theorem finishFetch_keepsStages (f : Fetch) : s.KeepsStages (s.finishFetch f).2 := by
  unfold State.finishFetch
  split
  · exact ⟨rfl, rfl⟩
  · exact foldl_keeps s.KeepsStages _ (fun t w ht => keepsStages_trans ht (wsCount_keepsStages t _ 1)) _ s ⟨rfl, rfl⟩

theorem finishAll_keepsStages (ok : Fetch → Bool) (l : List Fetch) : s.KeepsStages (s.finishAll ok l).2 := by
  induction l generalizing s with
  | nil => exact ⟨rfl, rfl⟩
  | cons f l ih =>
    refine keepsStages_trans ?_ (ih (if ok f then s.finishFetch f else (f, s)).2)
    split
    · exact finishFetch_keepsStages s f
    · exact ⟨rfl, rfl⟩

/-- Accesses that complete leave memory and the other engine as they are. -/
theorem settleStage_keeps (ok : Fetch → Bool) (e : Nat) : (s.settleStage ok e).mem = s.mem ∧
    ∀ f, f ≠ e → (s.settleStage ok e).stg f = s.stg f := by
  unfold State.settleStage
  simp only
  split
  · exact ⟨rfl, fun _ _ => rfl⟩
  · next r _ =>
    have hkeep := finishAll_keepsStages s ok r.fetches
    split
    · refine ⟨hkeep.mem, fun f hf => (setStg_stg_other _ hf _).trans ?_⟩
      exact congrArg (tget ({} : Stage) · f) hkeep.stgs
    · exact ⟨rfl, fun _ _ => rfl⟩

theorem setSeHash_mem (e : Nat) (h : List Byte) : (s.setSeHash e h).mem = s.mem := rfl

theorem setSeHash_stg (e : Nat) (h : List Byte) (f : Nat) : (s.setSeHash e h).stg f = s.stg f := rfl

/-- A program that stops for EMPTY leaves its engine EMPTY without a task, and memory and the other engine as they are. -/
theorem stgRest_empty (e : Nat) : (s.stgRest e .empty).mem = s.mem ∧
    (∀ f, f ≠ e → (s.stgRest e .empty).stg f = s.stg f) ∧
    ((s.stgRest e .empty).stg e).st = .empty ∧ ((s.stgRest e .empty).stg e).tr = none := by
  obtain ⟨hmem, hother⟩ := settleStage_keeps s (fun _ => true) e
  unfold State.stgRest
  simp only [if_true]
  generalize s.settleStage (fun _ => true) e = t at hmem hother
  have hsend := iter_keeps t.KeepsStages (fun w t => t.setReg (Reg.STG_SENDBUF e w) 0) (fun w u hu => ⟨hu.mem, hu.stgs⟩)
    6 0 (t.semFreeAll (seReq e)) ⟨rfl, rfl⟩
  generalize iter (fun w t => t.setReg (Reg.STG_SENDBUF e w) 0) 0 6 (t.semFreeAll (seReq e)) = u at hsend
  simp only [setSeHash_mem, setSeHash_stg, setStg_mem, setStg_stg_same, and_self, and_true]
  refine ⟨hsend.mem.trans hmem, fun f hf => ?_⟩
  rw [setStg_stg_other _ hf]
  exact (congrArg (tget ({} : Stage) · f) hsend.stgs).trans (hother f hf)

section
variable (e : Fin 2) {c : Fin 66} (hc : c.val = 64 + e.val)
include hc

/-- RECOVERY_KERNEL_DONE of a Stage Engine. -/
theorem exec_recoveryKernelDone_stage (pass : Bool) :
    exec (.recoveryKernelDone c pass) s = done s (s.whenRunning (s.seKernelEnd e.val pass)) := by
  show done s (s.whenRunning (s.kernelEnd c.val pass)) = _
  rw [hc, State.kernelEnd, if_neg (by omega), Nat.add_sub_cancel_left]

theorem exec_recoveryKernelDone_stage_same (h : s.engineRuns = false ∨ (s.stg e.val).kernel = false) (pass : Bool) :
    exec (.recoveryKernelDone c pass) s = .next s := by
  rw [exec_recoveryKernelDone_stage s e hc]
  rcases h with hr | hk
  · exact done_whenRunning_gated s hr _
  · refine done_whenRunning_same s ?_
    cases pass <;> simp [State.seKernelEnd, State.stgRestart, hk]

/-- A recovery kernel that passes begins the reload of R419. -/
theorem exec_recoveryKernelDone_stage_pass : exec (.recoveryKernelDone c true) s = exec (.stgAutoRestart e) s :=
  exec_recoveryKernelDone_stage s e hc true

/-- A recovery kernel that fails clears the spill stack and leaves the engine EMPTY and out of service (R400, R419). -/
theorem exec_recoveryKernelDone_stage_fail (hr : s.engineRuns = true) (hk : (s.stg e.val).kernel = true) :
    ∃ t, exec (.recoveryKernelDone c false) s = .next t ∧ (t.stg e.val).st = .empty ∧
      (t.stg e.val).kernel = false ∧ (t.stg e.val).oos = true ∧ (t.stg e.val).tr = none ∧
      (∀ a, t.byte a = if seBase e.val ≤ a ∧ a < seBase e.val + 0xC00 then 0 else s.byte a) ∧
      ∀ f, f ≠ e.val → t.stg f = s.stg f := by
  obtain ⟨hmem, hother, hst, htr⟩ := stgRest_empty (s.clearBytes (seBase e.val) 0xC00) e.val
  have hexec := exec_recoveryKernelDone_stage s e hc false
  rw [whenRunning_runs s hr, done_eq, State.seKernelEnd, if_neg Bool.false_ne_true, if_pos hk] at hexec
  generalize (s.clearBytes (seBase e.val) 0xC00).stgRest e.val .empty = u at hmem hother hst htr hexec
  obtain ⟨t, ht⟩ : ∃ t, t = { u.setStg e.val { u.stg e.val with kernel := false, oos := true } with
    pending := s.pending } := ⟨_, rfl⟩
  rw [← ht] at hexec
  have hstgs : t.stgs = (u.setStg e.val { u.stg e.val with kernel := false, oos := true }).stgs := by rw [ht]
  have hself : t.stg e.val = { u.stg e.val with kernel := false, oos := true } := by
    rw [State.stg, hstgs]
    exact setStg_stg_same ..
  refine ⟨t, hexec, by rw [hself, hst], by rw [hself], by rw [hself], by rw [hself, htr], fun a => ?_, fun f hf => ?_⟩
  · rw [← clearBytes_byte, State.byte, ht]
    exact congrArg (tget (0 : Byte) · a) hmem
  · rw [State.stg, hstgs]
    exact (setStg_stg_other u hf _).trans (hother f hf)

end

/-- Settles O47: each clause is what one command does, a migration's copy and its end, RESUME, and the end of a recovery
kernel on a core or a Stage Engine, by its result. -/
theorem coreRecovery : Obligations.CoreRecovery := by
  unfold Obligations.CoreRecovery
  intro q n v w w' s
  refine ⟨fun m hr hm hc ha hw => exec_migrationCopy_starts s v hr hm hc ha hw, fun m _ hm h => ?_, fun h => ⟨?_, ?_⟩,
    fun m hr hm => ⟨fun hc => exec_migrationCopyDone_copied s v hr hm hc, fun hc => ?_⟩,
    fun hw ht => exec_veResume_taken s q n hw ht, fun pass h => exec_recoveryKernelDone_core_same s n rfl h pass,
    fun hr hk => ⟨exec_recoveryKernelDone_core_pass s n rfl hr hk, exec_recoveryKernelDone_core_fail s n rfl hr hk⟩,
    fun e se hse => ⟨fun h pass => exec_recoveryKernelDone_stage_same s e hse h pass,
      fun hr hk => ⟨exec_recoveryKernelDone_stage_pass s e hse, exec_recoveryKernelDone_stage_fail s e hse hr hk⟩⟩⟩
  · exact done_whenRunning_same s (migrationCopy_waits hm h)
  · rcases h with hr | hm
    · exact done_whenRunning_gated s hr _
    · exact done_whenRunning_same s (migrationCopy_none hm)
  · rcases h with hr | hm
    · exact done_whenRunning_gated s hr _
    · exact done_whenRunning_same s (migrationDone_none hm)
  · exact done_whenRunning_same s (migrationDone_waits hm hc)

end Sys2Proof.Machine
end
